-- ==== Sys2Proof/Word.lean ====
section
/-! DEFINITION. The words of the block: a data byte and a bus notification word (R8, R61). -/

namespace Sys2Proof

/-- One data byte (`u8` of R8). -/
abbrev Byte := BitVec 8

/-- One bus notification, in either direction (R61). -/
abbrev BusWord := BitVec 32

/-- A 7-bit bus address (R40). -/
abbrev BusAddress := BitVec 7

end Sys2Proof
end

