-- ==== Sys2Proof/Config.lean ====
section
/-! DEFINITION. The configuration record of R4 and the free values. The spec's constants and the launch
configuration stand in Machine/Constants.lean. -/

namespace Sys2Proof

/-- The five kinds of device (R1, R102). -/
inductive DeviceKind where
  | rtc | eeprom | keypad | led | display
deriving DecidableEq, Repr

/-- One entry of `DEVICES` (R4): a kind and a match predicate. A predicate on 7-bit addresses is the set of
the addresses it accepts, one bit each, so every predicate the spec allows is one of these (log 24). -/
structure DeviceSpec where
  kind  : DeviceKind
  addrs : BitVec 128
deriving DecidableEq, Repr

/-- `RTC_PM_TOGGLE` (R4, R140). -/
inductive PmToggle where
  | atRollover
  | at11To12
deriving DecidableEq, Repr

/-- `RTC_DIM` (R145): the default table, or any other function of month 1..12 and year 0..99 that returns
28..31, two bits of `offsets` for each (year, month) (log 24). -/
inductive DimRule where
  | byTable
  | custom (offsets : Nat)
deriving DecidableEq, Repr

/-- The commands a row of `DISP_CMD_TABLE` can name (R231). -/
inductive DisplayCommand where
  | escInit | usCursor | usMag | usImage | usScroll | usBlink | usWinSelect | usWinDefine
deriving DecidableEq, Repr

/-- The optional dynamic-length function of a table row (R231): none, the two of the default table, or a
function of another table, which is known by its number only (log 16). -/
inductive DynLen where
  | none
  | imageSize
  | windowDefine
  | other (k : Nat)
deriving DecidableEq, Repr

/-- A row of `DISP_CMD_TABLE` (R231). -/
structure CommandRow where
  key       : List Byte
  fixedLen  : Nat
  dynLen    : DynLen
  command   : DisplayCommand
deriving DecidableEq, Repr

/-- The configuration record of R4: fixed at launch, read by the steps, written by none (R33). `FONT` is the
opaque `Config.font` below; the match predicates stand in the devices. -/
structure Config where
  /-- `CYCLES_PER_US`, a positive natural (R276). -/
  cyclesPerUs : Nat
  /-- `RTC_TICK_PERIOD`, in cycles (R134, R272). -/
  rtcTickPeriod : Nat
  /-- `RTC_LAST`. -/
  rtcLast : Nat
  /-- `RTC_INIT`: the registers after construction; an index past the list's end holds 0. -/
  rtcInit : List Byte
  rtcPmToggle : PmToggle
  rtcDim : DimRule
  /-- `RTC_SQW_BIT[0..3]` (R148). -/
  rtcSqwBit : List Nat
  /-- `EE_SIZE`, 1 to 65536. -/
  eeSize : Nat
  /-- `EE_INIT`: the bytes that differ from 0xFF, in the canonical form of Memory. -/
  eeInit : List Host.Cell
  /-- `EE_DELAY`: no step reads it (R169). -/
  eeDelay : Nat
  kpRows : Nat
  kpCols : Nat
  kpReleaseDelayUs : Nat
  dispW : Nat
  dispH : Nat
  glyphW : Nat
  glyphH : Nat
  cmdTable : List CommandRow
  /-- `DISP_BUSY_US`: absent means the display has no busy line (R244). -/
  dispBusyUs : Option Nat
deriving DecidableEq, Repr

/-- `FONT(c)[gy][gx]` (R4, R228): OPEN, an opaque configuration function (log 15). -/
opaque Config.font (c : Byte) (gy gx : Nat) : Bool

/-- The dynamic-length function number `k` of a command table other than the default one (R225, log 16). -/
opaque Config.dynLength (k : Nat) (fixed : List Byte) : Nat

/-- Free value: a fixed argument its command reads but a row of another command table does not collect (R231,
log 16). -/
opaque Config.absentArgument (index : Nat) : Byte

/-- Free value: a payload byte US_IMAGE reads but a row of another command table does not collect (R231, R240,
log 16). -/
opaque Config.absentPayload (index : Nat) : Byte

/-- Free value: the field bits an ill-formed RTC register takes (R146, log 13). -/
opaque Config.freeByte (draw : Nat) : Byte

/-- Free value: whether an ill-formed RTC register carries (R146, log 13). -/
opaque Config.freeCarry (draw : Nat) : Bool

/-- Free value: a cursor column R232 does not determine (log 14). -/
opaque Config.freeColumn (draw : Nat) : Nat

end Sys2Proof
end

