-- ==== Sys2Proof/Machine/Constants.lean ====
section
/-! DEFINITION. The spec's numbers behind named constants: source values, register indices and masks (R14 to
R24, decisions D14, D23, D32), the default command table (R231), and the launch configuration. -/

namespace Sys2Proof

/-! ## Source values (R4) -/

/-- `RTC_TICKS_PER_SEC`, the modulus of the 15-bit oscillator counter. -/
def rtcTicksPerSecond : Nat := 32768
/-- `KP_LAST`. -/
def kpLast : Nat := 0x2E
/-- `KP_FIFO_CAP`. -/
def kpFifoCap : Nat := 10
/-- `LED_LAST`. -/
def ledLast : Nat := 0x1B
/-- `LED_NCH`. -/
def ledChannels : Nat := 16
/-- `TRANSCRIPT_CAP`. -/
def transcriptCap : Nat := 100

/-! ## Register indices (D14, D23, D32) -/

def rtcSec : Nat := 0
def rtcMin : Nat := 1
def rtcHour : Nat := 2
def rtcDow : Nat := 3
def rtcDate : Nat := 4
def rtcMonth : Nat := 5
def rtcYear : Nat := 6
def rtcCtrl : Nat := 7
def kpCfg : Nat := 1
def kpIntStat : Nat := 2
def kpKeyLckEc : Nat := 3
def kpKeyEventA : Nat := 4
/-- `KP_PRESS_BIT` (D24). -/
def kpPressBit : Byte := 0x80
def ledPwm0 : Nat := 0x02
def ledLedout0 : Nat := 0x14

/-! ## RTC tens masks (R15) -/

def maskSec : Byte := 0x70
def maskMin : Byte := 0x70
def maskHour24 : Byte := 0x30
def maskHour12 : Byte := 0x10
def maskDate : Byte := 0x30
def maskMonth : Byte := 0x10
def maskYear : Byte := 0xF0

/-! ## The display's command table -/

/-- The default `DISP_CMD_TABLE` (R231). -/
def defaultCommandTable : List CommandRow :=
  [ ⟨[0x1B, 0x40], 0, .none, .escInit⟩,
    ⟨[0x1F, 0x24], 4, .none, .usCursor⟩,
    ⟨[0x1F, 0x28, 0x67, 0x40], 2, .none, .usMag⟩,
    ⟨[0x1F, 0x28, 0x66, 0x11], 5, .imageSize, .usImage⟩,
    ⟨[0x1F, 0x28, 0x61, 0x10], 5, .none, .usScroll⟩,
    ⟨[0x1F, 0x28, 0x61, 0x11], 4, .none, .usBlink⟩,
    ⟨[0x1F, 0x28, 0x77, 0x01], 1, .none, .usWinSelect⟩,
    ⟨[0x1F, 0x28, 0x77, 0x02], 2, .windowDefine, .usWinDefine⟩ ]

/-! ## Launch -/

/-- The launch configuration of State.reset (DESIGN CHOICE, log 1): the defaults of R4 where it gives one,
the example configuration of 95_test_vectors.md for what that gives; the model's own `RTC_TICK_PERIOD` 488 and
`EE_DELAY` 0, which neither gives (logs 1 and 27); `RTC_INIT` all zero (log 2), `EE_INIT` all 0xFF (log 4). -/
def Config.launch : Config where
  cyclesPerUs := 16
  rtcTickPeriod := 488
  rtcLast := 0x3F
  rtcInit := []
  rtcPmToggle := .atRollover
  rtcDim := .byTable
  rtcSqwBit := [14, 2, 1, 0]
  eeSize := 32768
  eeInit := []
  eeDelay := 0
  kpRows := 8
  kpCols := 10
  kpReleaseDelayUs := 50
  dispW := 140
  dispH := 32
  glyphW := 6
  glyphH := 8
  cmdTable := defaultCommandTable
  dispBusyUs := none

/-- The match predicate "equal to `a`" (R91). -/
def onlyAddress (a : Nat) : BitVec 128 := BitVec.twoPow 128 a

/-- `DEVICES` at launch (DESIGN CHOICE, log 1): the five devices of 95_test_vectors.md at its addresses. -/
def launchDevices : List DeviceSpec :=
  [ ⟨.rtc, onlyAddress 0x68⟩, ⟨.eeprom, onlyAddress 0x50⟩, ⟨.keypad, onlyAddress 0x34⟩,
    ⟨.led, onlyAddress 0x60⟩, ⟨.display, onlyAddress 0x3C⟩ ]

end Sys2Proof
end

