-- ==== Sys2Proof/Machine/Memory.lean ====
section
/-! DEFINITION. Finite maps by natural key in one canonical form (addresses strictly rising), and the byte
memory built on them: the EEPROM's backing buffer (R23), one byte wide (R43). -/

namespace Sys2Proof.Machine

/-! ## Maps with strictly rising keys -/

/-- The keys rise strictly. -/
abbrev Rising {α : Type} (l : List (Nat × α)) : Prop := (l.map Prod.fst).Pairwise (· < ·)

/-- The value at key `a`. -/
def mapFind? {α : Type} (l : List (Nat × α)) (a : Nat) : Option α :=
  match l with
  | [] => none
  | (k, v) :: rest => if k = a then some v else mapFind? rest a

/-- The map without key `a`. -/
def mapErase {α : Type} (l : List (Nat × α)) (a : Nat) : List (Nat × α) := l.filter (fun e => e.1 != a)

/-- The map with `v` at key `a`. -/
def mapInsert {α : Type} (l : List (Nat × α)) (a : Nat) (v : α) : List (Nat × α) :=
  match l with
  | [] => [(a, v)]
  | (k, w) :: rest =>
    if a < k then (a, v) :: (k, w) :: rest
    else if a = k then (a, v) :: rest
    else (k, w) :: mapInsert rest a v

/-! ## Memory -/

/-- A byte memory: the bytes that differ from what an unlisted address reads as. -/
abbrev Memory := List Host.Cell

/-- What an unlisted address reads as (DESIGN CHOICE, log 4; D45 offers 0xFF). -/
def unlistedByte : Byte := 0xFF

/-- The canonical form: addresses strictly rising, no entry equal to what an unlisted address reads as. -/
abbrev Memory.wf (m : Memory) : Prop := Rising m ∧ ∀ e ∈ m, e.2 ≠ unlistedByte

/-- `MemRead(EE, a, 1)` (R8). -/
def memRead (m : Memory) (a : Nat) : Byte := (mapFind? m a).getD unlistedByte

/-- `MemWrite(EE, a, 1, v)` (R8), keeping the canonical form. -/
def memWrite (m : Memory) (a : Nat) (v : Byte) : Memory :=
  if v = unlistedByte then mapErase m a else mapInsert m a v

end Sys2Proof.Machine
end

