-- ==== Sys2Proof/Machine/Devices.lean ====
section
/-! DEFINITION. The state of one device of each kind (R12 to R27) and its value after construction (R32). -/

namespace Sys2Proof.Machine

/-! ## The two-phase register devices (R12, R13) -/

/-- `phase` of the RTC, the keypad and the LED driver. -/
inductive Phase where
  | idle | addressPhase | dataWrite | dataRead
deriving DecidableEq, Repr

/-- What the three register devices share: `phase`, `sel` and the register file. -/
structure RegCore where
  phase : Phase
  sel   : Option Nat
  regs  : List Byte
deriving DecidableEq, Repr

/-- A register core after construction, with the register file given. -/
def RegCore.fresh (regs : List Byte) : RegCore := { phase := .idle, sel := none, regs := regs }

/-- The real-time clock (R14 to R18, R27). -/
structure Rtc where
  core     : RegCore
  osc      : BitVec 15
  sqwLevel : Bool
  sqwPin   : Bool
  /-- `rtc_timer`, the id of the recurring tick. -/
  timer    : Nat
deriving DecidableEq, Repr

/-- The keypad controller (R19 to R22, R27). The FIFO has no storage of its own (R21). -/
structure Keypad where
  core           : RegCore
  unacked        : Byte
  overflow       : Bool
  pendingRelease : List (Nat × Nat)
  /-- pin `INT_n`, active low. -/
  intN           : Bool
deriving DecidableEq, Repr

/-- The LED driver (R12, R24). -/
structure Led where
  core    : RegCore
  autoinc : Bool
deriving DecidableEq, Repr

/-! ## The EEPROM (R12, R23) -/

inductive EePhase where
  | idle | addressingHigh | addressingLow | dataWrite | dataRead
deriving DecidableEq, Repr

structure Eeprom where
  phase  : EePhase
  addrHi : Option Byte
  ptr    : Option Nat
  buf    : Memory
deriving DecidableEq, Repr

/-! ## The display (R12, R25, R26, R27) -/

inductive DispPhase where
  | idle | receiving
deriving DecidableEq, Repr

inductive ParserState where
  | idle | collectingCommandPrefix | collectingFixedArgs | collectingVariableArgs
deriving DecidableEq, Repr

structure Display where
  phase     : DispPhase
  pstate    : ParserState
  /-- `prefix` of R12. -/
  pfx       : List Byte
  fixed     : List Byte
  /-- `var` of R12. -/
  varArgs   : List Byte
  needFixed : Nat
  needVar   : Nat
  entry     : Option CommandRow
  cx        : Nat
  cy        : Nat
  magX      : Nat
  magY      : Nat
  busyTimer : Option Nat
  /-- pin `BUSY`. -/
  busy      : Bool
  /-- `px[Y][X]`. -/
  px        : List (List Bool)
  text      : List (List Byte)
deriving DecidableEq, Repr

/-! ## Any device -/

/-- The state of a device, by kind (R102). -/
inductive DevState where
  | rtc (r : Rtc)
  | eeprom (e : Eeprom)
  | keypad (k : Keypad)
  | led (l : Led)
  | display (d : Display)
deriving DecidableEq, Repr

/-- One instance of `DEVICES` (R294): its match predicate, whether it still exists (R312), its state. -/
structure Device where
  addrs : BitVec 128
  live  : Bool
  st    : DevState
deriving DecidableEq, Repr

/-- `match_D(a)` (R91). -/
def Device.accepts (d : Device) (a : BusAddress) : Bool := d.addrs.getLsbD a.toNat

/-- Payload kinds of timed actions (R28). -/
inductive Payload where
  | rtcTick
  | keyRelease (code : Nat)
  | busyEnd
deriving DecidableEq, Repr

/-- A pending timed action (R28). -/
structure PendingAction where
  id       : Nat
  owner    : Nat
  fireAt   : Nat
  payload  : Payload
  periodic : Option Nat
deriving DecidableEq, Repr

/-! ## Values after construction (R32) -/

/-- All pixels off (R26). -/
def blankPixels (c : Config) : List (List Bool) := List.replicate c.dispH (List.replicate c.dispW false)

/-- `COLS` and `ROWS` (R26). -/
def textCols (c : Config) : Nat := c.dispW / c.glyphW
def textRows (c : Config) : Nat := c.dispH / c.glyphH

/-- The text buffer filled with 0x20 (R26). -/
def blankText (c : Config) : List (List Byte) := List.replicate (textRows c) (List.replicate (textCols c) 0x20)

def Rtc.constructed (c : Config) (timer : Nat) : Rtc where
  core := .fresh ((List.range (c.rtcLast + 1)).map (fun i => c.rtcInit.getD i 0))
  osc := 0
  sqwLevel := false
  sqwPin := false
  timer := timer

def Keypad.constructed : Keypad where
  core := .fresh (List.replicate (kpLast + 1) 0)
  unacked := 0
  overflow := false
  pendingRelease := []
  intN := true

def Led.constructed : Led where
  core := .fresh (List.replicate (ledLast + 1) 0)
  autoinc := false

def Eeprom.constructed (c : Config) : Eeprom where
  phase := .idle
  addrHi := none
  ptr := none
  buf := c.eeInit

def Display.constructed (c : Config) : Display where
  phase := .idle
  pstate := .idle
  pfx := []
  fixed := []
  varArgs := []
  needFixed := 0
  needVar := 0
  entry := none
  cx := 0
  cy := 0
  magX := 1
  magY := 1
  busyTimer := none
  busy := false
  px := blankPixels c
  text := blankText c

/-- The constructed state of a device of a kind; `timer` is the id its recurring tick will have, if it is an
RTC (R311). -/
def DevState.constructed (c : Config) (timer : Nat) : DeviceKind → DevState
  | .rtc => .rtc (.constructed c timer)
  | .eeprom => .eeprom (.constructed c)
  | .keypad => .keypad .constructed
  | .led => .led .constructed
  | .display => .display (.constructed c)

/-- The devices, the pending actions and the next fresh id while the host constructs devices. -/
structure Construction where
  devices : List Device
  pending : List PendingAction
  nextId  : Nat
deriving DecidableEq, Repr

/-- Construction of one device (R311): its state of R32, its adapter subscribed, and for an RTC the recurring
tick, first due one period after `now` (R272). -/
def constructDevice (c : Config) (now : Nat) (b : Construction) (spec : DeviceSpec) : Construction :=
  let dev : Device := { addrs := spec.addrs, live := true, st := .constructed c b.nextId spec.kind }
  if spec.kind = .rtc then
    { devices := b.devices ++ [dev]
      pending := b.pending ++
        [{ id := b.nextId, owner := b.devices.length, fireAt := now + c.rtcTickPeriod, payload := .rtcTick,
           periodic := some c.rtcTickPeriod }]
      nextId := b.nextId + 1 }
  else { b with devices := b.devices ++ [dev] }

/-- Construction of the whole block (R311). -/
def constructAll (c : Config) (now : Nat) (specs : List DeviceSpec) : Construction :=
  specs.foldl (constructDevice c now) { devices := [], pending := [], nextId := 0 }

end Sys2Proof.Machine
end

