-- ==== Sys2Proof/Machine/Operands.lean ====
section
/-! DEFINITION. Operand assembly (R67 to R74) and the decimal arithmetic of R8. -/

namespace Sys2Proof.Machine

/-! ## Display arguments (R41, R74) -/

/-- A 16-bit display argument, low byte first (R41, R74). -/
def arg16 (lo hi : Byte) : Nat := lo.toNat + 256 * hi.toNat

/-- The payload length of US_IMAGE: `w * h` (R240). -/
def imageBytes (xL xH yL yH : Byte) : Nat := arg16 xL xH * arg16 yL yH

/-- The payload length of US_WIN_DEFINE: 8 if `b == 1` else 0 (R231). -/
def windowBytes (b : Byte) : Nat := if b = 1 then 8 else 0

/-! ## EEADDR (R67) -/

/-- The EEPROM address: the first byte is bits 15:8. -/
def eeAddress (hi lo : Byte) : Nat := 256 * hi.toNat + lo.toNat

/-! ## KEYEVT (R68) -/

/-- `code = row * 10 + col + 1`. -/
def keyCode (row col : Nat) : Nat := row * 10 + col + 1

/-- `byte = code | (pressed ? KP_PRESS_BIT : 0)`. -/
def keyEventByte (press : Bool) (code : Nat) : Byte :=
  BitVec.ofNat 8 code ||| (if press then kpPressBit else 0)

/-- `byte[6:0]`, zero for a byte that is no event. -/
def keyEventCode (b : Byte) : Nat := (b.extractLsb' 0 7).toNat

/-- The row and the column of a nonzero code (R68). -/
def keyRow (code : Nat) : Nat := (code - 1) / 10
def keyCol (code : Nat) : Nat := (code - 1) % 10

/-- `pressed = byte[7]`. -/
def keyEventPressed (b : Byte) : Bool := b.getLsbD 7

/-- `KEYEVT` (R68): `{pressed, row, col}`. -/
structure KeyEvent where
  pressed : Bool
  row     : Nat
  col     : Nat
deriving DecidableEq, Repr

/-- The decoding of a key event byte; none where the code is 0, which is no event. -/
def decodeKeyEvent (b : Byte) : Option KeyEvent :=
  if keyEventCode b = 0 then none
  else some { pressed := keyEventPressed b, row := keyRow (keyEventCode b), col := keyCol (keyEventCode b) }

/-! ## BCDF (R69, R8) -/

/-- `bcd_dec(b, m) = ((b & m) >> 4) * 10 + (b & 0x0F)`. -/
def bcdDec (b m : Byte) : Nat := (b &&& m).toNat / 16 * 10 + (b &&& 0x0F).toNat

/-- `bcd_enc(v, m) = (((v / 10) << 4) & m) | (v % 10)`. -/
def bcdEnc (v : Nat) (m : Byte) : Byte := (BitVec.ofNat 8 (v / 10 * 16) &&& m) ||| BitVec.ofNat 8 (v % 10)

/-- A field's bits replaced, every other bit kept (R136). -/
def withField (old m new : Byte) : Byte := (old &&& ~~~(m ||| 0x0F)) ||| (new &&& (m ||| 0x0F))

/-! ## LEDOUT (R71) -/

/-- The two bits of channel `n` in its mode register. -/
def ledModeBits (modeRegister : Byte) (n : Nat) : BitVec 2 := modeRegister.extractLsb' (2 * (n % 4)) 2

end Sys2Proof.Machine
end

