-- ==== Sys2Proof/Machine/Flags.lean ====
section
/-! DEFINITION. The status bits and flags of R31: reading and writing the fields of the control and status
registers (R16, R17, R20). The hardware has no condition codes. -/

namespace Sys2Proof.Machine

/-! ## Register files -/

/-- `regs_D[i]` (R8). An index outside the file, which no rule uses, reads 0 (log 31). -/
def regRead (regs : List Byte) (i : Nat) : Byte := regs.getD i 0

/-- `regs_D[i] <- v` (R8). -/
def regWrite (regs : List Byte) (i : Nat) (v : Byte) : List Byte := regs.set i v

/-! ## RTC (R16, R17) -/

/-- `RTC_CH`: oscillator disabled (bit 7 of the seconds). -/
def rtcHalted (regs : List Byte) : Bool := (regRead regs rtcSec).getLsbD 7

/-- `RTC_H12`: 12-hour mode (bit 6 of the hours). -/
def rtcTwelveHour (regs : List Byte) : Bool := (regRead regs rtcHour).getLsbD 6

/-- `RTC_PM` (bit 5 of the hours). -/
def rtcPm (regs : List Byte) : Bool := (regRead regs rtcHour).getLsbD 5

/-- `RTC_PM` as a mask. -/
def rtcPmBit : Byte := 0x20

/-- `RTC_SQWE` (bit 4 of the control register). -/
def rtcSquareEnabled (regs : List Byte) : Bool := (regRead regs rtcCtrl).getLsbD 4

/-- `RTC_RS` (bits 1:0 of the control register). -/
def rtcRate (regs : List Byte) : Nat := ((regRead regs rtcCtrl).extractLsb' 0 2).toNat

/-! ## Keypad (R20) -/

/-- `KE_IEN` (bit 0 of `KP_CFG`). -/
def kpInterruptEnabled (regs : List Byte) : Bool := (regRead regs kpCfg).getLsbD 0

/-- `K_INT` (bit 0 of `KP_INT_STAT`). -/
def kpKeyInterrupt (regs : List Byte) : Bool := (regRead regs kpIntStat).getLsbD 0

/-- `EC`, the event count (bits 3:0 of `KP_KEY_LCK_EC`). -/
def kpCount (regs : List Byte) : Nat := ((regRead regs kpKeyLckEc).extractLsb' 0 4).toNat

/-- `KP_KEY_LCK_EC` with the count replaced (R181, R186): `(old & 0xF0) | n`. -/
def kpWithCount (regs : List Byte) (n : Nat) : Byte := (regRead regs kpKeyLckEc &&& 0xF0) ||| BitVec.ofNat 8 n

/-- FIFO slot `i`, which is `regs_KP[KP_KEY_EVENT_A + i]` (R21). -/
def kpSlot (regs : List Byte) (i : Nat) : Byte := regRead regs (kpKeyEventA + i)

/-- AND-NOT, the write-one-to-clear of R188. -/
def andNot (a v : Byte) : Byte := a &&& ~~~v

/-! ## LED driver (R71) -/

/-- `mode(n)` of channel `n` (R211). -/
def ledMode (regs : List Byte) (n : Nat) : BitVec 2 := ledModeBits (regRead regs (ledLedout0 + n / 4)) n

end Sys2Proof.Machine
end

