-- ==== Sys2Proof/Machine/Message.lean ====
section
/-! DEFINITION. The bus message, a value produced once per bus event (R11), and its kind (R64). -/

namespace Sys2Proof.Machine

/-- The framing conditions a message carries, a subset of {START, STOP, READ, WRITE} (R63). -/
structure Conditions where
  start : Bool
  stop  : Bool
  write : Bool
  read  : Bool
deriving DecidableEq, Repr

/-- `BusMessage` (R11), with the derived direction bit `rnw` (1 = read). -/
structure BusMessage where
  address    : BusAddress
  rnw        : Bool
  data       : Byte
  conditions : Conditions
deriving DecidableEq, Repr

/-- The kinds of message (R64). -/
inductive MessageKind where
  | startW | startR | write | read | stop | malformed
deriving DecidableEq, Repr

/-- `kind(m)` (R64): exactly one framing condition, or MALFORMED. -/
def BusMessage.kind (m : BusMessage) : MessageKind :=
  match m.conditions with
  | ⟨true, false, false, false⟩ => if m.rnw then .startR else .startW
  | ⟨false, false, true, false⟩ => .write
  | ⟨false, false, false, true⟩ => .read
  | ⟨false, true, false, false⟩ => .stop
  | _ => .malformed

/-- The address byte `ab = {address, rnw}` (R61). -/
def addressByte (address : BusAddress) (rnw : Bool) : Byte := address ++ BitVec.ofBool rnw

/-- The address byte of a message, which its replies echo (R65). -/
def BusMessage.ab (m : BusMessage) : Byte := addressByte m.address m.rnw

end Sys2Proof.Machine
end

