-- ==== Sys2Proof/Syntax.lean ====
section
/-! DEFINITION. The abstract syntax: one constructor per row of spec/opcode_table.json. -/

namespace Sys2Proof

/-- The operations that have an encoding (R79). -/
inductive Instr where
  -- Host to devices, on BUS_OUT (R66). `data` is ignored but for WRITE (R61); it is part of the message (R62).
  | startW (data : Byte) (address : BusAddress)
  | startR (data : Byte) (address : BusAddress)
  | write (data : Byte) (address : BusAddress) (rnw : Bool)
  | read (data : Byte) (address : BusAddress) (rnw : Bool)
  | stop (data : Byte) (address : BusAddress) (rnw : Bool)
  -- Device to host, on BUS_IN (R65, R66).
  | ack (data : Byte) (address : BusAddress) (rnw : Bool)
  | ackRead (data : Byte) (address : BusAddress) (rnw : Bool)
  -- The display's control bytes (R73).
  | bs | ht | lf | hom | clr | cr
  -- PRINT, the three rows 0x20..0x3F, 0x40..0x7F, 0x80..0xFF (R79): the bits the row leaves open.
  | print20 (c : BitVec 5)
  | print40 (c : BitVec 6)
  | print80 (c : BitVec 7)
  -- The display's multi-byte commands (R231).
  | escInit
  | usCursor (xL xH yL yH : Byte)
  | usMag (x y : Byte)
  | usImage (xL xH yL yH g : Byte) (payload : List Byte)
  | usScroll (wL wH cL cH sp : Byte)
  | usBlink (p t1 t2 c : Byte)
  | usWinSelect (a : Byte)
  | usWinDefine (a b : Byte) (payload : List Byte)
  -- The operand rows: the LED driver's address-selection byte (R70), the EEPROM address (R67).
  | ledctl (ai : Bool) (reg : BitVec 5)
  | eeaddr (hi lo : Byte)
deriving DecidableEq, Repr

end Sys2Proof
end

