-- ==== Sys2Proof/WellFormed.lean ====
section
/-! DEFINITION. What an instruction must satisfy beyond its shape. -/

namespace Sys2Proof

open Sys2Proof.Machine

/-- Well-formed: an ACK carries data 0x00 (R65); a payload has the length its fixed arguments say (R231). -/
def Instr.wf : Instr → Bool
  | .ack data _ _ => data == 0
  | .usImage xL xH yL yH _ payload => payload.length == imageBytes xL xH yL yH
  | .usWinDefine _ b payload => payload.length == windowBytes b
  | .startW _ _ | .startR _ _ | .write _ _ _ | .read _ _ _ | .stop _ _ _ | .ackRead _ _ _ => true
  | .bs | .ht | .lf | .hom | .clr | .cr => true
  | .print20 _ | .print40 _ | .print80 _ => true
  | .escInit | .usCursor _ _ _ _ | .usMag _ _ | .usScroll _ _ _ _ _ | .usBlink _ _ _ _ | .usWinSelect _ => true
  | .ledctl _ _ | .eeaddr _ _ => true

/-- The well-formedness of an instruction as a proposition. -/
abbrev WellFormed (i : Instr) : Prop := i.wf = true

end Sys2Proof
end

