-- ==== Sys2Proof/Decode.lean ====
section
/-! DEFINITION. Decoding and encoding, written from R60 to R74 and the table of R231. The layout of the bus
word stands here only (N6). -/

namespace Sys2Proof

open Sys2Proof.Machine

/-- An encoded operation as it arrives: a word on one of the two wires (R66), the bytes of one display command
(R72), the LED driver's address-selection byte (R70), or the two EEPROM address bytes (R67). The formats are
told apart by where the bits arrive, not by the bits. -/
inductive Encoded where
  | busOut (w : BusWord)
  | busIn (w : BusWord)
  | stream (bytes : List Byte)
  | ledSelect (b : Byte)
  | eeAddress (hi lo : Byte)
deriving DecidableEq, Repr

/-- Why bits are no instruction. -/
inductive Reject where
  /-- A BUS_OUT word with none or several framing conditions (R64). -/
  | malformedMessage
  /-- A BUS_IN word that is neither ACK nor ACK_READ (R66). -/
  | notAReply
  /-- Bytes no control byte, printable byte or table key begins with (R223, R224). -/
  | unrecognized
  /-- A command whose bytes end too soon. -/
  | incomplete
  /-- Bytes left over after one whole command. -/
  | trailing
  /-- A LEDCTL byte with bits 6:5 not 0 (R70). -/
  | ledSubRange
deriving DecidableEq, Repr

/-! ## The bus word (R61 to R66) -/

/-- The condition flags in bits 15:8 (R61). -/
def flagStart : Byte := 0x01
def flagStop : Byte := 0x02
def flagAck : Byte := 0x08
def flagWrite : Byte := 0x10
def flagRead : Byte := 0x20

/-- A bus word from its fields (R61): data 31:24, address byte 23:16, flags 15:8, zero 7:0. -/
def busWord (data ab flags : Byte) : BusWord := data ++ ab ++ flags ++ (0 : Byte)

/-- Decoding a bus word into a message (R62): total, the other bits do not enter. -/
def decodeMessage (w : BusWord) : BusMessage where
  address := w.extractLsb' 17 7
  rnw := w.getLsbD 16
  data := w.extractLsb' 24 8
  conditions :=
    { start := w.getLsbD 8, stop := w.getLsbD 9, write := w.getLsbD 12, read := w.getLsbD 13 }

/-- The operation of a well-framed message (R64). -/
def messageInstr (m : BusMessage) : Except Reject Instr :=
  match m.kind with
  | .startW => .ok (.startW m.data m.address)
  | .startR => .ok (.startR m.data m.address)
  | .write => .ok (.write m.data m.address m.rnw)
  | .read => .ok (.read m.data m.address m.rnw)
  | .stop => .ok (.stop m.data m.address m.rnw)
  | .malformed => .error .malformedMessage

/-- A word on BUS_OUT (R66, rows 1 to 5). -/
def decodeBusOut (w : BusWord) : Except Reject Instr := messageInstr (decodeMessage w)

/-- A word on BUS_IN (R66, rows 6 and 7): ACK set, no framing condition but READ. -/
def decodeBusIn (w : BusWord) : Except Reject Instr :=
  let m := decodeMessage w
  if w.getLsbD 11 && !m.conditions.start && !m.conditions.stop && !m.conditions.write then
    if m.conditions.read then .ok (.ackRead m.data m.address m.rnw) else .ok (.ack m.data m.address m.rnw)
  else .error .notAReply

/-- AckOnly's word (R65, R98). -/
def ackWord (ab : Byte) : BusWord := busWord 0x00 ab flagAck

/-- AckWithByte's word (R65, R99). -/
def ackReadWord (b ab : Byte) : BusWord := busWord b ab (flagAck ||| flagRead)

/-! ## Display commands (R72 to R74) -/

/-- The three ranges of PRINT (R79). -/
def printInstr (c : Byte) : Instr :=
  if c.getLsbD 7 then .print80 (c.extractLsb' 0 7)
  else if c.getLsbD 6 then .print40 (c.extractLsb' 0 6)
  else .print20 (c.extractLsb' 0 5)

/-- The length a row's dynamic-length function gives (R225, R231). -/
def dynLength (f : DynLen) (fixed : List Byte) : Nat :=
  match f with
  | .none => 0
  | .imageSize => imageBytes (fixed.getD 0 0) (fixed.getD 1 0) (fixed.getD 2 0) (fixed.getD 3 0)
  | .windowDefine => windowBytes (fixed.getD 1 0)
  | .other k => Config.dynLength k fixed

/-- The instruction a command with its fixed and variable bytes is (R231). -/
def commandInstr (c : DisplayCommand) (fixed varArgs : List Byte) : Instr :=
  let a := fun i => fixed.getD i 0
  match c with
  | .escInit => .escInit
  | .usCursor => .usCursor (a 0) (a 1) (a 2) (a 3)
  | .usMag => .usMag (a 0) (a 1)
  | .usImage => .usImage (a 0) (a 1) (a 2) (a 3) (a 4) varArgs
  | .usScroll => .usScroll (a 0) (a 1) (a 2) (a 3) (a 4)
  | .usBlink => .usBlink (a 0) (a 1) (a 2) (a 3)
  | .usWinSelect => .usWinSelect (a 0)
  | .usWinDefine => .usWinDefine (a 0) (a 1) varArgs

/-- The six control bytes (R73). -/
def controlInstr (b : Byte) : Option Instr :=
  if b = 0x08 then some .bs
  else if b = 0x09 then some .ht
  else if b = 0x0A then some .lf
  else if b = 0x0B then some .hom
  else if b = 0x0C then some .clr
  else if b = 0x0D then some .cr
  else none

/-- A multi-byte command at the head of the bytes, and what follows it (R72): the table key that begins them,
then the fixed arguments, then as many variable bytes as the row's function says. The table is the default one
(DESIGN CHOICE, logs 16 and 34): the opcode table's rows are its rows; the display's parser reads the configured
one. -/
def decodeCommand (bytes : List Byte) : Except Reject (Instr × List Byte) :=
  match defaultCommandTable.find? (fun r => r.key.isPrefixOf bytes) with
  | some r =>
    let args := bytes.drop r.key.length
    let fixed := args.take r.fixedLen
    if fixed.length < r.fixedLen then .error .incomplete
    else
      let rest := args.drop r.fixedLen
      let n := dynLength r.dynLen fixed
      if rest.length < n then .error .incomplete
      else .ok (commandInstr r.command fixed (rest.take n), rest.drop n)
  | none =>
    if defaultCommandTable.any (fun r => bytes.isPrefixOf r.key) then .error .incomplete
    else .error .unrecognized

/-- One display command at the head of the bytes, and what follows it (R72, R223). -/
def decodeStream (bytes : List Byte) : Except Reject (Instr × List Byte) :=
  match bytes with
  | [] => .error .incomplete
  | b :: rest =>
    match controlInstr b with
    | some i => .ok (i, rest)
    | none => if 0x20 ≤ b.toNat then .ok (printInstr b, rest) else decodeCommand (b :: rest)

/-! ## Operands (R67, R70) -/

/-- The LED driver's address-selection byte (R70). -/
def decodeLedctl (b : Byte) : Except Reject Instr :=
  if b.extractLsb' 5 2 = 0 then .ok (.ledctl (b.getLsbD 7) (b.extractLsb' 0 5)) else .error .ledSubRange

/-! ## All formats -/

/-- Decoding, total on any bits. -/
def decode : Encoded → Except Reject Instr
  | .busOut w => decodeBusOut w
  | .busIn w => decodeBusIn w
  | .stream bytes =>
    match decodeStream bytes with
    | .ok (i, []) => .ok i
    | .ok (_, _ :: _) => .error .trailing
    | .error e => .error e
  | .ledSelect b => decodeLedctl b
  | .eeAddress hi lo => .ok (.eeaddr hi lo)

/-! ## Encoding -/

/-- The LEDCTL byte of its fields, bits 6:5 zero (R70). -/
def ledctlByte (ai : Bool) (reg : BitVec 5) : Byte := BitVec.ofBool ai ++ (0 : BitVec 2) ++ reg

/-- The printable byte of each PRINT row (R79). -/
def print20Byte (c : BitVec 5) : Byte := (1 : BitVec 3) ++ c
def print40Byte (c : BitVec 6) : Byte := (1 : BitVec 2) ++ c
def print80Byte (c : BitVec 7) : Byte := (1 : BitVec 1) ++ c

/-- The bits of an instruction: R66 for the words, R73 and R231 for the display, R70 and R67 for the operands.
Bits the decoder ignores are 0. -/
def encode : Instr → Encoded
  | .startW data a => .busOut (busWord data (addressByte a false) flagStart)
  | .startR data a => .busOut (busWord data (addressByte a true) flagStart)
  | .write data a rnw => .busOut (busWord data (addressByte a rnw) flagWrite)
  | .read data a rnw => .busOut (busWord data (addressByte a rnw) flagRead)
  | .stop data a rnw => .busOut (busWord data (addressByte a rnw) flagStop)
  | .ack data a rnw => .busIn (busWord data (addressByte a rnw) flagAck)
  | .ackRead data a rnw => .busIn (ackReadWord data (addressByte a rnw))
  | .bs => .stream [0x08]
  | .ht => .stream [0x09]
  | .lf => .stream [0x0A]
  | .hom => .stream [0x0B]
  | .clr => .stream [0x0C]
  | .cr => .stream [0x0D]
  | .print20 c => .stream [print20Byte c]
  | .print40 c => .stream [print40Byte c]
  | .print80 c => .stream [print80Byte c]
  | .escInit => .stream [0x1B, 0x40]
  | .usCursor xL xH yL yH => .stream [0x1F, 0x24, xL, xH, yL, yH]
  | .usMag x y => .stream [0x1F, 0x28, 0x67, 0x40, x, y]
  | .usImage xL xH yL yH g payload => .stream ([0x1F, 0x28, 0x66, 0x11, xL, xH, yL, yH, g] ++ payload)
  | .usScroll wL wH cL cH sp => .stream [0x1F, 0x28, 0x61, 0x10, wL, wH, cL, cH, sp]
  | .usBlink p t1 t2 c => .stream [0x1F, 0x28, 0x61, 0x11, p, t1, t2, c]
  | .usWinSelect a => .stream [0x1F, 0x28, 0x77, 0x01, a]
  | .usWinDefine a b payload => .stream ([0x1F, 0x28, 0x77, 0x02, a, b] ++ payload)
  | .ledctl ai reg => .ledSelect (ledctlByte ai reg)
  | .eeaddr hi lo => .eeAddress hi lo

/-! ## The opcode table's numbering -/

/-- The `n` bytes of a table number, the first byte the most significant (R79: "first byte leftmost"; EEADDR's
high byte is bits 15:8 and the first byte written). -/
def tableBytes (n w : Nat) : List Byte :=
  (List.range n).map (fun i => BitVec.ofNat 8 (w / 256 ^ (n - 1 - i)))

/-- The bytes followed by as many zero bytes as the longest reading of them can need. -/
def zeroExtended (bytes : List Byte) : List Byte :=
  bytes ++ List.replicate (16 + imageBytes (bytes.getD 4 0) (bytes.getD 5 0) (bytes.getD 6 0) (bytes.getD 7 0)) 0

/-- The display command a table number is, if it is one. -/
def tableCommand? (n w : Nat) : Option Instr :=
  match decodeStream (zeroExtended (tableBytes n w)) with
  | .ok (i, _) => some i
  | .error _ => none

/-- Where the bits of a table row arrive, told from their number (log 10). Rows of different formats overlap as
numbers; a row whose bits are fixed is preferred to one whose bits are free: the replies have the ACK flag, which
a host word does not need; one byte is a display byte if it can be one, else LEDCTL; two bytes are ESC_INIT or
else EEADDR; four bytes are a bus word or else the prefix of a command. -/
def tableEncoded (nbits w : Nat) : Encoded :=
  let bytes := tableBytes (nbits / 8) w
  if nbits = 32 then
    let word := BitVec.ofNat 32 w
    match decodeBusIn word, decodeBusOut word, tableCommand? 4 w with
    | .ok _, _, _ => .busIn word
    | .error _, .ok _, _ => .busOut word
    | .error _, .error _, some i => encode i
    | .error _, .error _, none => .busOut word
  else
    match tableCommand? (nbits / 8) w with
    | some i => if nbits = 16 && i != .escInit then .eeAddress (bytes.getD 0 0) (bytes.getD 1 0) else encode i
    | none =>
      if nbits = 8 then .ledSelect (bytes.getD 0 0)
      else if nbits = 16 then .eeAddress (bytes.getD 0 0) (bytes.getD 1 0)
      else .stream bytes

/-- The instruction the decoder reads from a table row's bits. -/
def decodeTableWord (nbits w : Nat) : Option Instr :=
  match decode (tableEncoded nbits w) with
  | .ok i => some i
  | .error _ => none

end Sys2Proof
end

