-- ==== Sys2Proof/Machine/State.lean ====
section
/-! DEFINITION. The state of the block (R10), its reasons to stop, and the state after construction (R32). -/

namespace Sys2Proof.Machine

/-- The fatal causes (R280). -/
inductive Cause where
  | protocolDesync
  | outOfRange
  | unimplemented
deriving DecidableEq, Repr

/-- The value a fault records (R280): the message, the offending index or address, or the feature. -/
inductive FaultInfo where
  | message (m : BusMessage)
  | index (n : Nat)
  | feature (n : Nat)
deriving DecidableEq, Repr

/-- `{cause, device, info}` (R30, R283). -/
structure FaultRecord where
  cause  : Cause
  device : Nat
  info   : FaultInfo
deriving DecidableEq, Repr

/-- The discrete pins (R27). -/
inductive Pin where
  | intN | sqw | busy
deriving DecidableEq, Repr

/-- Output events (R30). A pin event also says which device drives the pin (log 21). -/
inductive OutputEvent where
  | busIn (w : BusWord)
  | pin (device : Nat) (p : Pin) (level : Bool)
deriving DecidableEq, Repr

/-- A record of `log Unrecognized` (R280, R287): the device and the bytes (log 28). -/
structure LogRecord where
  device : Nat
  bytes  : List Byte
deriving DecidableEq, Repr

inductive Direction where
  | read | write
deriving DecidableEq, Repr

/-- `Transaction` (R29). -/
structure Transaction where
  address       : BusAddress
  direction     : Option Direction
  repeatedStart : Bool
  writeBytes    : List Byte
  readBytes     : List Byte
deriving DecidableEq, Repr

/-- What a consumer's accessor returned (R212, R266, R295). -/
inductive Answer where
  | duty (device : Nat) (out : List Byte)
  | finished (l : List Transaction)
  | registers (device : Nat) (regs : List Byte)
  | screen (device : Nat) (px : List (List Bool)) (text : List (List Byte))
deriving DecidableEq, Repr

/-- One move of an agent of R6 that has not happened yet (log 6). -/
inductive HostEvent where
  /-- An encoded operation arrives; `order` is the order in which the host calls the subscribers, `focus` the
  device a display command or an operand row is for. -/
  | operation (order : List Nat) (focus : Nat) (enc : Encoded)
  /-- Host cycles pass. -/
  | advance (cycles : Nat)
  /-- The host timer fires the action with this id (R274). -/
  | fire (id : Nat)
  | addKeyEvent (device : Nat) (press : Bool) (row col : Nat)
  | addKeyRawEvent (device : Nat) (b : Byte)
  | addKeyPressAndRelease (device row col : Nat)
  /-- The same call with the key named by its code (90_conflicts.md C3). -/
  | addKeyPressAndReleaseCode (device code : Nat)
  | getCurrentState (device : Nat)
  | getFinishedMessages
  | snapshot (device : Nat)
  | registerOnComplete (callback : Nat)
  | attach (spec : DeviceSpec)
  | destroy (device : Nat)
deriving DecidableEq, Repr

/-- The whole state (R10). The fields from `cfg` on are the model's own. -/
structure State where
  aborted    : Option FaultRecord
  devices    : List Device
  now        : Nat
  pending    : List PendingAction
  openTx     : Option Transaction
  finished   : List Transaction
  onComplete : Option Nat
  trace      : List OutputEvent
  dbglog     : List LogRecord
  /-- The launch configuration (R4): no step writes it. -/
  cfg        : Config
  /-- The agents' moves to come, first the next (log 6). -/
  inbox      : List HostEvent
  /-- The order in which the host calls the subscribers (D13, log 8). -/
  order      : List Nat
  /-- The device a display command or an operand row acts on (log 9). -/
  focus      : Nat
  /-- The address byte of the message being handled, the operand of R98 and R99 (log 18). -/
  ab         : Byte
  /-- The next fresh identifier (R271, log 5). -/
  nextId     : Nat
  /-- How many free values have been drawn (log 13, log 14). -/
  draws      : Nat
  /-- The completion callbacks made (R264, log 22). -/
  calls      : List (Nat × Transaction)
  /-- The accessors' results (log 23). -/
  answers    : List Answer
deriving DecidableEq, Repr

/-- Reasons the machine stops. -/
inductive Fault where
  /-- Raised by every step and every instruction at a state whose run is aborted: "stuck: no agent has a step"
  (R283, U25). Safe: the spec gives no behaviour after an abort. -/
  | runAborted (r : FaultRecord)
deriving DecidableEq, Repr

/-- Reasons an instruction has no meaning. -/
inductive Refusal where
  /-- Raised by `exec` for an instruction that is not modelled; no arm answers it now. Safe. -/
  | notModelled (mnemonic : String)
deriving DecidableEq, Repr

/-- The block after construction (R311, R32) with the given configuration, devices and initial `now`. -/
def State.launched (c : Config) (specs : List DeviceSpec) (now : Nat) : State where
  aborted := none
  devices := (constructAll c now specs).devices
  now := now
  pending := (constructAll c now specs).pending
  openTx := none
  finished := []
  onComplete := none
  trace := []
  dbglog := []
  cfg := c
  inbox := []
  order := []
  focus := 0
  ab := 0
  nextId := (constructAll c now specs).nextId
  draws := 0
  calls := []
  answers := []

/-- The machine right after reset: R32 with the launch configuration (logs 1 to 5). -/
def State.reset : State := State.launched Config.launch launchDevices 0

end Sys2Proof.Machine
end

