-- ==== Sys2Proof/Machine/Ops.lean ====
section
/-! DEFINITION. The shared operations: replies, pins, the log, timed actions (47), the listener (47), taking a
fatal exception (R283), and how a device's reaction is carried out. -/

namespace Sys2Proof.Machine

/-! ## Taking an exception (R283, R284) -/

/-- `raise Fatal.<Cause>(device, info)`: sets `aborted` and nothing else. There is no return from it (R284);
the next step is stuck. -/
def State.raiseFatal (s : State) (device : Nat) (c : Cause) (info : FaultInfo) : State :=
  { s with aborted := some { cause := c, device := device, info := info } }

/-- The code of a cause (R280). -/
def Cause.code : Cause → Nat
  | .protocolDesync => 1
  | .outOfRange => 2
  | .unimplemented => 3

/-- The code of `Unrecognized`, which is not fatal (R280). -/
def unrecognizedCode : Nat := 4

/-- A step of an agent: stuck when the run is aborted (R283, U25), otherwise the next state. -/
def State.unlessAborted (s : State) (f : State → State) : Host.Outcome State Fault Refusal :=
  match s.aborted with
  | some r => .fault (.runAborted r)
  | none => .next (f s)

/-! ## The listener (R260 to R267) -/

/-- The direction a START gives (R261). -/
def messageDirection (m : BusMessage) : Direction := if m.rnw then .read else .write

/-- The open transaction after a START (R261): a new one, or the open one marked as repeated with the new
direction and the first address. -/
def txStart (o : Option Transaction) (m : BusMessage) : Option Transaction :=
  match o with
  | none =>
    some { address := m.address, direction := some (messageDirection m), repeatedStart := false,
           writeBytes := [], readBytes := [] }
  | some t => some { t with repeatedStart := true, direction := some (messageDirection m) }

/-- The open transaction after a written byte (R262). -/
def txWrite (o : Option Transaction) (b : Byte) : Option Transaction :=
  o.map (fun t => { t with writeBytes := t.writeBytes ++ [b] })

/-- The open transaction after a byte a device returned (R263). -/
def txRead (o : Option Transaction) (b : Byte) : Option Transaction :=
  o.map (fun t => { t with readBytes := t.readBytes ++ [b] })

/-- The finished list after a STOP (R264): the newest first, at most TRANSCRIPT_CAP. -/
def txFinish (o : Option Transaction) (finished : List Transaction) : List Transaction :=
  match o with
  | none => finished
  | some t => (t :: finished).take transcriptCap

/-- The callbacks made after a STOP (R264). -/
def txCall (o : Option Transaction) (cb : Option Nat) (calls : List (Nat × Transaction)) :
    List (Nat × Transaction) :=
  match o, cb with
  | some t, some c => calls ++ [(c, t)]
  | _, _ => calls

/-- A START seen (R261). -/
def State.listenStart (s : State) (m : BusMessage) : State := { s with openTx := txStart s.openTx m }

/-- A WRITE seen (R262). -/
def State.listenWrite (s : State) (b : Byte) : State := { s with openTx := txWrite s.openTx b }

/-- A STOP seen (R264). -/
def State.listenStop (s : State) : State :=
  { s with
    finished := txFinish s.openTx s.finished
    openTx := none
    calls := txCall s.openTx s.onComplete s.calls }

/-- The listener on a BUS_OUT message (R261, R262, R264, R265): START is tested first, then STOP, then WRITE. -/
def State.listenOut (s : State) (m : BusMessage) : State :=
  if m.conditions.start then s.listenStart m
  else if m.conditions.stop then s.listenStop
  else if m.conditions.write then s.listenWrite m.data
  else s

/-- The open transaction after a BUS_IN word (R263): an ACK_READ's byte is appended, a plain ACK adds nothing. -/
def txReply (o : Option Transaction) (w : BusWord) : Option Transaction :=
  match decodeBusIn w with
  | .ok (.ackRead b _ _) => txRead o b
  | _ => o

/-! ## Outputs (R98, R99, R27) -/

/-- `emit BusIn(w)`: appended to the trace and seen by the listener, within the handling of the message. -/
def State.emitBusIn (s : State) (w : BusWord) : State :=
  { s with trace := s.trace ++ [.busIn w], openTx := txReply s.openTx w }

/-- `emit Pin(P, level)`. -/
def State.emitPin (s : State) (device : Nat) (p : Pin) (level : Bool) : State :=
  { s with trace := s.trace ++ [OutputEvent.pin device p level] }

/-- `log Unrecognized(device, bytes)` (R287). -/
def State.logUnrecognized (s : State) (device : Nat) (bytes : List Byte) : State :=
  { s with dbglog := s.dbglog ++ [{ device := device, bytes := bytes }] }

/-! ## The timed-event helper (R270 to R276) -/

/-- `Schedule(owner, delay_us, payload)` (R271, R276); the id it returns is `nextId`. -/
def State.schedule (s : State) (owner delayUs : Nat) (payload : Payload) : State :=
  { s with
    pending := s.pending ++
      [{ id := s.nextId, owner := owner, fireAt := s.now + delayUs * s.cfg.cyclesPerUs, payload := payload,
         periodic := none }]
    nextId := s.nextId + 1 }

/-- `Cancel(id)` (R273). -/
def State.cancel (s : State) (id : Nat) : State :=
  { s with pending := s.pending.filter (fun a => a.id != id) }

/-- Whether the action may fire now (R274): due, and none pending is due earlier. -/
def State.mayFire (s : State) (a : PendingAction) : Bool :=
  decide (a.fireAt ≤ s.now) && s.pending.all (fun b => decide (a.fireAt ≤ b.fireAt))

/-- The pending actions after one of them fires: it is gone, or put back one period later if it is periodic
(R272, R274). -/
def afterFiring (a : PendingAction) (pending : List PendingAction) : List PendingAction :=
  match a.periodic with
  | none => pending.filter (fun b => b.id != a.id)
  | some p => pending.map (fun b => if b.id = a.id then { b with fireAt := b.fireAt + p } else b)

/-- The action taken out of `pending`, or put back (R272, R274). -/
def State.takeAction (s : State) (a : PendingAction) : State := { s with pending := afterFiring a s.pending }

/-- The cycle counter moves on (R28: it never decreases). -/
def State.advance (s : State) (cycles : Nat) : State := { s with now := s.now + cycles }

/-! ## Reactions of a device -/

/-- What a device's handler asks for beside its own new state, in order. -/
inductive Effect where
  /-- Raise a word on BUS_IN. -/
  | reply (w : BusWord)
  | pin (p : Pin) (level : Bool)
  | log (bytes : List Byte)
  | cancel (id : Nat)
  /-- Schedule a one-shot action; its id is the `nextId` the handler was given. -/
  | schedule (delayUs : Nat) (payload : Payload)
  /-- So many free values were drawn. -/
  | drew (n : Nat)
deriving DecidableEq, Repr

/-- What a handler answers: the device's new state and the effects, or a fatal raise (which precedes every
write of its rule, R283). -/
inductive Reaction (δ : Type) where
  | done (d : δ) (effects : List Effect)
  | raise (c : Cause) (info : FaultInfo)
deriving DecidableEq, Repr

/-- The same reaction about a larger state. -/
def Reaction.map {δ ε : Type} (f : δ → ε) : Reaction δ → Reaction ε
  | .done d es => .done (f d) es
  | .raise c info => .raise c info

/-- `AckOnly_D()` answering a message with address byte `ab` (R98). -/
def ackOnly (ab : Byte) : Effect := .reply (ackWord ab)

/-- `AckWithByte_D(b)` (R99). -/
def ackWithByte (b ab : Byte) : Effect := .reply (ackReadWord b ab)

/-- One effect carried out for device `k`. -/
def State.perform (k : Nat) (s : State) : Effect → State
  | .reply w => s.emitBusIn w
  | .pin p level => s.emitPin k p level
  | .log bytes => s.logUnrecognized k bytes
  | .cancel id => s.cancel id
  | .schedule delayUs payload => s.schedule k delayUs payload
  | .drew n => { s with draws := s.draws + n }

/-- Device `k` gets a new state. -/
def State.setDevice (s : State) (k : Nat) (d : Device) : State := { s with devices := s.devices.set k d }

/-- The reaction of device `k`, which is `dev` now, carried out: the new state and then the effects in order, or
the abort. -/
def State.react (s : State) (k : Nat) (dev : Device) : Reaction DevState → State
  | .done d es => es.foldl (State.perform k) (s.setDevice k { dev with st := d })
  | .raise c info => s.raiseFatal k c info

/-- What a handler may read beside its own device: the configuration, the next fresh id, the draw counter. -/
structure Env where
  cfg   : Config
  id    : Nat
  draws : Nat
deriving DecidableEq, Repr

def State.env (s : State) : Env := { cfg := s.cfg, id := s.nextId, draws := s.draws }

/-- Device `k`, if there is one and it has not been destroyed (U28). -/
def State.liveDevice? (s : State) (k : Nat) : Option Device :=
  match s.devices[k]? with
  | some d => if d.live then some d else none
  | none => none

/-! ## The order of delivery (R54, D13) -/

/-- The subscribers 0..n in the order the host calls them: as `order` lists them, each once, then those it does
not list. Any list is thereby some order of all the subscribers, and every order is some list's (log 8). -/
def deliveryOrder (n : Nat) (order : List Nat) : List Nat :=
  (order.filter (fun k => decide (k ≤ n))).dedup ++ (List.range (n + 1)).filter (fun k => !order.contains k)

end Sys2Proof.Machine
end

