-- ==== Sys2Proof/Machine/Display.lean ====
section
/-! DEFINITION. The character display controller (46_display.md): commands, drawing, the byte parser, the busy
line. -/

namespace Sys2Proof.Machine

/-! ## Geometry -/

/-- `gw = GLYPH_W * mag_x`, `gh = GLYPH_H * mag_y` (R228). -/
def Display.gw (cfg : Config) (d : Display) : Nat := cfg.glyphW * d.magX
def Display.gh (cfg : Config) (d : Display) : Nat := cfg.glyphH * d.magY

/-- The pixels of the rectangle of `w` by `h` at `(x0, y0)` set by `f dy dx`; what falls outside the grid is
clipped, what is outside the rectangle is kept (R228, R240). -/
def paint (px : List (List Bool)) (x0 y0 w h : Nat) (f : Nat → Nat → Bool) : List (List Bool) :=
  px.mapIdx (fun Y row =>
    if y0 ≤ Y ∧ Y < y0 + h then
      row.mapIdx (fun X p => if x0 ≤ X ∧ X < x0 + w then f (Y - y0) (X - x0) else p)
    else row)

/-- `px[Y][X]`; false outside the grid. -/
def pixelAt (px : List (List Bool)) (Y X : Nat) : Bool := (px.getD Y []).getD X false

/-- `text[r][k]`; 0x20 outside the buffer. -/
def textAt (text : List (List Byte)) (r k : Nat) : Byte := (text.getD r []).getD k 0x20

/-! ## Printing (R228 to R230) -/

/-- `Advance()` (R230). -/
def Display.advance (cfg : Config) (d : Display) : Display :=
  let gw := d.gw cfg
  let gh := d.gh cfg
  if cfg.dispW < d.cx + gw + gw then
    { d with cx := 0, cy := if cfg.dispH < d.cy + gh + gh then 0 else d.cy + gh }
  else { d with cx := d.cx + gw }

/-- `TextPut(c)` (R229). -/
def Display.textPut (cfg : Config) (d : Display) (c : Byte) : Display :=
  let r := d.cy / cfg.glyphH
  let k := d.cx / cfg.glyphW
  if r < textRows cfg ∧ k < textCols cfg then { d with text := d.text.modify r (fun row => row.set k c) } else d

/-- The magnified glyph drawn over its whole cell (R228). -/
def Display.drawGlyph (cfg : Config) (d : Display) (c : Byte) : Display :=
  { d with px := paint d.px d.cx d.cy (d.gw cfg) (d.gh cfg) (fun dy dx => Config.font c (dy / d.magY) (dx / d.magX)) }

/-- `Print(c)` (R228). -/
def Display.print (cfg : Config) (d : Display) (c : Byte) : Display :=
  ((d.drawGlyph cfg c).textPut cfg c).advance cfg

/-! ## Control bytes (R232 to R237) -/

/-- `BS` (R232). When the cursor is at the left edge below the first line, the last glyph place of the line above
is `((DISP_W / gw) - 1) * gw`; the spec states none when a glyph is wider than the display: a free column of the
display (log 14), `draws` counting the draw. -/
def Display.backspace (env : Env) (d : Display) : Display × List Effect :=
  let gw := d.gw env.cfg
  let gh := d.gh env.cfg
  if gw ≤ d.cx then ({ d with cx := d.cx - gw }, [])
  else if gh ≤ d.cy then
    if gw ≤ env.cfg.dispW then ({ d with cy := d.cy - gh, cx := (env.cfg.dispW / gw - 1) * gw }, [])
    else ({ d with cy := d.cy - gh, cx := Config.freeColumn env.draws % env.cfg.dispW }, [.drew 1])
  else (d, [])

/-- `LF` (R234). -/
def Display.lineFeed (cfg : Config) (d : Display) : Display :=
  let gh := d.gh cfg
  { d with cy := if cfg.dispH < d.cy + gh + gh then 0 else d.cy + gh }

/-- `HOM` (R235). -/
def Display.home (d : Display) : Display := { d with cx := 0, cy := 0 }

/-- `CLR` (R236): magnification kept. -/
def Display.clear (cfg : Config) (d : Display) : Display :=
  { d with px := blankPixels cfg, text := blankText cfg, cx := 0, cy := 0 }

/-- `CR` (R237). -/
def Display.carriageReturn (d : Display) : Display := { d with cx := 0 }

/-! ## Multi-byte commands (R238 to R243) -/

/-- `ESC_INIT` (R238). -/
def Display.initialise (cfg : Config) (d : Display) : Display := { d.clear cfg with magX := 1, magY := 1 }

/-- `US_CURSOR` (R239); `bytes` is what is logged when the position is out of range. -/
def Display.setCursor (cfg : Config) (d : Display) (xL xH yL yH : Byte) (bytes : List Byte) :
    Display × List Effect :=
  let x := arg16 xL xH
  let y := arg16 yL yH
  if x < cfg.dispW ∧ y * 8 < cfg.dispH then ({ d with cx := x, cy := y * 8 }, []) else (d, [.log bytes])

/-- `US_MAG` (R241). -/
def Display.setMag (d : Display) (x y : Byte) (bytes : List Byte) : Display × List Effect :=
  if 1 ≤ x.toNat ∧ x.toNat ≤ 4 ∧ 1 ≤ y.toNat ∧ y.toNat ≤ 2 then ({ d with magX := x.toNat, magY := y.toNat }, [])
  else (d, [.log bytes])

/-- `US_IMAGE` (R240): column by column, each column `h` bytes, bit 7 uppermost; `g` is ignored. Payload bytes past
`w * h` are ignored, and one that is not there is a free value: both can happen with a command table other than
the default one only (DESIGN CHOICE, log 16). -/
def Display.image (d : Display) (xL xH yL yH : Byte) (payload : List Byte) : Display :=
  let w := arg16 xL xH
  let h := arg16 yL yH
  { d with
    px := paint d.px d.cx d.cy w (8 * h) (fun dy dx =>
      (payload.getD (dx * h + dy / 8) (Config.absentPayload (dx * h + dy / 8))).getLsbD (7 - dy % 8)) }

/-- A stub command (R243): parsed to its full length, then no effect. -/
def Display.stub (d : Display) : Display := d

/-- The command named by a table row with its collected bytes (R227, R238 to R243). An argument the row does not
collect is a free value, and a payload of a command that has none is ignored (DESIGN CHOICE, log 16). -/
def Display.command (cfg : Config) (c : DisplayCommand) (key fixed varArgs : List Byte) (d : Display) :
    Display × List Effect :=
  let a := fun i => fixed.getD i (Config.absentArgument i)
  match c with
  | .escInit => (d.initialise cfg, [])
  | .usCursor => d.setCursor cfg (a 0) (a 1) (a 2) (a 3) (key ++ fixed)
  | .usMag => d.setMag (a 0) (a 1) (key ++ fixed)
  | .usImage => (d.image (a 0) (a 1) (a 2) (a 3) varArgs, [])
  | .usScroll | .usBlink | .usWinSelect | .usWinDefine => (d.stub, [])

/-! ## The parser (R222 to R227) -/

/-- The parser's buffers emptied, `pstate <- Idle` (R227, R100). -/
def Display.clearParser (d : Display) : Display :=
  { d with pstate := .idle, pfx := [], fixed := [], varArgs := [], needFixed := 0, needVar := 0, entry := none }

/-- `Execute()` (R227). -/
def Display.execute (cfg : Config) (d : Display) : Display × List Effect :=
  match d.entry with
  | some row =>
    let r := d.command cfg row.command d.pfx d.fixed d.varArgs
    (r.1.clearParser, r.2)
  | none => (d.clearParser, [])

/-- `AfterFixed()` (R225). -/
def Display.afterFixed (cfg : Config) (d : Display) : Display × List Effect :=
  let need := match d.entry with
    | some row => dynLength row.dynLen d.fixed
    | none => 0
  if 0 < need then ({ d with needVar := need, pstate := .collectingVariableArgs }, [])
  else Display.execute cfg { d with needVar := need }

/-- `EnterArgs()` (R224). -/
def Display.enterArgs (cfg : Config) (d : Display) (row : CommandRow) : Display × List Effect :=
  let d1 : Display := { d with entry := some row, fixed := [], varArgs := [], needFixed := row.fixedLen }
  if 0 < row.fixedLen then ({ d1 with pstate := .collectingFixedArgs }, []) else d1.afterFixed cfg

/-- The row whose key is exactly these bytes. -/
def tableRow? (table : List CommandRow) (bytes : List Byte) : Option CommandRow :=
  table.find? (fun r => r.key == bytes)

/-- Whether some key begins with these bytes. -/
def tableBegins (table : List CommandRow) (bytes : List Byte) : Bool := table.any (fun r => bytes.isPrefixOf r.key)

/-- A control byte executed at once (R223), or none for another byte. -/
def Display.control? (env : Env) (d : Display) (b : Byte) : Option (Display × List Effect) :=
  if b = 0x08 then some (d.backspace env)
  else if b = 0x09 then some (d.advance env.cfg, [])
  else if b = 0x0A then some (d.lineFeed env.cfg, [])
  else if b = 0x0B then some (d.home, [])
  else if b = 0x0C then some (d.clear env.cfg, [])
  else if b = 0x0D then some (d.carriageReturn, [])
  else none

/-- A byte in parser state Idle (R223). -/
def Display.parseIdle (env : Env) (d : Display) (b : Byte) : Display × List Effect :=
  match d.control? env b with
  | some r => r
  | none =>
    if 0x20 ≤ b.toNat then (d.print env.cfg b, [])
    else if tableBegins env.cfg.cmdTable [b] then
      let d1 : Display := { d with pfx := [b], pstate := .collectingCommandPrefix }
      match tableRow? env.cfg.cmdTable [b] with
      | some row => d1.enterArgs env.cfg row
      | none => (d1, [])
    else (d, [.log [b]])

/-- A byte while the prefix grows (R224): the byte that breaks the match is consumed with it. -/
def Display.parsePrefix (cfg : Config) (d : Display) (b : Byte) : Display × List Effect :=
  let d1 : Display := { d with pfx := d.pfx ++ [b] }
  match tableRow? cfg.cmdTable d1.pfx with
  | some row => d1.enterArgs cfg row
  | none =>
    if tableBegins cfg.cmdTable d1.pfx then (d1, [])
    else ({ d1 with pfx := [], pstate := .idle }, [.log d1.pfx])

/-- A fixed argument byte (R225). -/
def Display.parseFixed (cfg : Config) (d : Display) (b : Byte) : Display × List Effect :=
  let d1 : Display := { d with fixed := d.fixed ++ [b] }
  if d1.fixed.length = d1.needFixed then d1.afterFixed cfg else (d1, [])

/-- A variable argument byte (R226). -/
def Display.parseVar (cfg : Config) (d : Display) (b : Byte) : Display × List Effect :=
  let d1 : Display := { d with varArgs := d.varArgs ++ [b] }
  if d1.varArgs.length = d1.needVar then d1.execute cfg else (d1, [])

/-- `ParseByte(b)` (R222). -/
def Display.parseByte (env : Env) (d : Display) (b : Byte) : Display × List Effect :=
  match d.pstate with
  | .idle => d.parseIdle env b
  | .collectingCommandPrefix => d.parsePrefix env.cfg b
  | .collectingFixedArgs => d.parseFixed env.cfg b
  | .collectingVariableArgs => d.parseVar env.cfg b

/-! ## The busy line (R244, R245) -/

/-- `BusyPulse()` (R244): nothing without DISP_BUSY_US; `env.id` is the id the new action gets. -/
def Display.busyPulse (env : Env) (d : Display) : Display × List Effect :=
  match env.cfg.dispBusyUs with
  | none => (d, [])
  | some us =>
    ({ d with busy := true, busyTimer := some env.id },
     (match d.busyTimer with | some t => [Effect.cancel t] | none => []) ++
     (if d.busy then [] else [Effect.pin .busy true]) ++
     [Effect.schedule us .busyEnd])

/-- `BusyEnd` (R245). -/
def Display.busyEnd (d : Display) : Display × List Effect :=
  ({ d with busy := false, busyTimer := none }, [.pin .busy false])

/-! ## Bus side (R221) -/

/-- A stream byte in Receiving: parsed, the busy pulse, the acknowledgement (R221). -/
def Display.streamByte (env : Env) (ab b : Byte) (d : Display) : Reaction Display :=
  let parsed := d.parseByte env b
  let pulsed := parsed.1.busyPulse env
  .done pulsed.1 (parsed.2 ++ pulsed.2 ++ [ackOnly ab])

/-- `Reset_D` (R100), and what a STOP writes (R221). -/
def Display.reset (d : Display) : Display := { d.clearParser with phase := .idle }

/-- The messages at the display (R221): it cannot be read. -/
def Display.handle (env : Env) (m : BusMessage) (d : Display) : Reaction Display :=
  match m.kind with
  | .startW => .done { d with phase := .receiving } [ackOnly m.ab]
  | .write =>
    match d.phase with
    | .receiving => d.streamByte env m.ab m.data
    | .idle => .raise .protocolDesync (.message m)
  | .stop => .done d.reset []
  | .startR | .read | .malformed => .raise .protocolDesync (.message m)

end Sys2Proof.Machine
end

