-- ==== Sys2Proof/Machine/Eeprom.lean ====
section
/-! DEFINITION. The EEPROM-style memory device (43_eeprom.md). -/

namespace Sys2Proof.Machine

/-- START_W (R161): any phase, `ptr` kept. -/
def Eeprom.onStartW (m : BusMessage) (d : Eeprom) : Reaction Eeprom :=
  .done { d with phase := .addressingHigh, addrHi := none } [ackOnly m.ab]

/-- START_R (R164): fatal unless both address bytes have come since the last STOP. -/
def Eeprom.onStartR (m : BusMessage) (d : Eeprom) : Reaction Eeprom :=
  match d.ptr with
  | none => .raise .protocolDesync (.message m)
  | some _ => .done { d with phase := .dataRead, addrHi := none } [ackOnly m.ab]

/-- The high address byte taken (R162). -/
def Eeprom.takeHigh (d : Eeprom) (b : Byte) : Eeprom := { d with addrHi := some b, phase := .addressingLow }

/-- The low address byte taken, the pointer assembled (R163, R67): no range check. -/
def Eeprom.takeLow (d : Eeprom) (hi lo : Byte) : Eeprom :=
  { d with ptr := some (eeAddress hi lo), addrHi := none, phase := .dataWrite }

/-- A data byte written (R165): the range test, then the store, then the pointer, which does not wrap. -/
def Eeprom.onStore (cfg : Config) (m : BusMessage) (p : Nat) (d : Eeprom) : Reaction Eeprom :=
  if cfg.eeSize ≤ p then .raise .outOfRange (.index p)
  else .done { d with buf := memWrite d.buf p m.data, ptr := some (p + 1) } [ackOnly m.ab]

/-- WRITE (R162, R163, R165, R168). A missing high byte or pointer does not occur in the phases that use them; it
is a desynchronisation (log 20). -/
def Eeprom.onWrite (cfg : Config) (m : BusMessage) (d : Eeprom) : Reaction Eeprom :=
  match d.phase, d.addrHi, d.ptr with
  | .addressingHigh, _, _ => .done (d.takeHigh m.data) [ackOnly m.ab]
  | .addressingLow, some hi, _ => .done (d.takeLow hi m.data) [ackOnly m.ab]
  | .dataWrite, _, some p => d.onStore cfg m p
  | _, _, _ => .raise .protocolDesync (.message m)

/-- READ (R166, R168). -/
def Eeprom.onRead (cfg : Config) (m : BusMessage) (d : Eeprom) : Reaction Eeprom :=
  match d.phase, d.ptr with
  | .dataRead, some p =>
    if cfg.eeSize ≤ p then .raise .outOfRange (.index p)
    else .done { d with ptr := some (p + 1) } [ackWithByte (memRead d.buf p) m.ab]
  | _, _ => .raise .protocolDesync (.message m)

/-- `Reset_D` (R100), and what a STOP writes (R167). -/
def Eeprom.reset (d : Eeprom) : Eeprom := { d with phase := .idle, addrHi := none, ptr := none }

/-- The messages at the EEPROM (R168). -/
def Eeprom.handle (cfg : Config) (m : BusMessage) (d : Eeprom) : Reaction Eeprom :=
  match m.kind with
  | .startW => d.onStartW m
  | .startR => d.onStartR m
  | .write => d.onWrite cfg m
  | .read => d.onRead cfg m
  | .stop => .done d.reset []
  | .malformed => .raise .protocolDesync (.message m)

/-- EEADDR, the two address bytes (R162 then R163) with both acknowledgements, answered to address byte `ab`
(log 18). -/
def Eeprom.address (ab hi lo : Byte) (d : Eeprom) : Reaction Eeprom :=
  .done ((d.takeHigh hi).takeLow hi lo) [ackOnly ab, ackOnly ab]

end Sys2Proof.Machine
end

