-- ==== Sys2Proof/Machine/TwoPhase.lean ====
section
/-! DEFINITION. The generic two-phase register device (41_two_phase_fsm.md): the machine the RTC, the keypad and
the LED driver share, over the four things a device plugs into it (R110). -/

namespace Sys2Proof.Machine

/-- What a device plugs into the machine (R110), and where its shared state stands. -/
structure Plugs (δ : Type) where
  core     : δ → RegCore
  setCore  : δ → RegCore → δ
  /-- `LAST_D`. -/
  last     : Nat
  /-- `Select_D(b)`: the device with `sel` (and for the LED driver `autoinc`) set, or the fault. -/
  select   : δ → Byte → Except (Cause × FaultInfo) δ
  /-- `WriteReg_D(i, v)` with its hook. -/
  writeReg : δ → Nat → Byte → δ × List Effect
  /-- `PostRead_D(i)`. -/
  postRead : δ → Nat → δ
  /-- `AutoInc_D()`. -/
  autoInc  : δ → Bool
  /-- `Reset_D()` (R100). -/
  reset    : δ → δ

/-- The default `Select_D` (R110, R114). -/
def selectIndex {δ : Type} (core : δ → RegCore) (setCore : δ → RegCore → δ) (last : Nat) (d : δ) (b : Byte) :
    Except (Cause × FaultInfo) δ :=
  if last < b.toNat then .error (.outOfRange, .index b.toNat)
  else .ok (setCore d { core d with sel := some b.toNat })

/-- `sel` after a data byte at index `i` (R118). -/
def nextIndex (last i : Nat) : Nat := (i + 1) % (last + 1)

/-- The device with its phase set. -/
def Plugs.toPhase {δ : Type} (p : Plugs δ) (d : δ) (ph : Phase) : δ := p.setCore d { p.core d with phase := ph }

/-- The device after a data byte at index `i`: `sel` advanced if it auto-increments (R115, R116, R118). -/
def Plugs.stepSel {δ : Type} (p : Plugs δ) (d : δ) (i : Nat) : δ :=
  if p.autoInc d then p.setCore d { p.core d with sel := some (nextIndex p.last i) } else d

/-- START_W (R111): accepted in every phase, `sel` kept (D11). -/
def Plugs.onStartW {δ : Type} (p : Plugs δ) (m : BusMessage) (d : δ) : Reaction δ :=
  .done (p.toPhase d .addressPhase) [ackOnly m.ab]

/-- START_R (R112): fatal unless a register is selected (D10). -/
def Plugs.onStartR {δ : Type} (p : Plugs δ) (m : BusMessage) (d : δ) : Reaction δ :=
  match (p.core d).sel with
  | none => .raise .protocolDesync (.message m)
  | some _ => .done (p.toPhase d .dataRead) [ackOnly m.ab]

/-- WRITE in AddressPhase (R114): the byte `b` selects, answered to address byte `ab`. -/
def Plugs.onAddress {δ : Type} (p : Plugs δ) (ab b : Byte) (d : δ) : Reaction δ :=
  match p.select d b with
  | .error (c, info) => .raise c info
  | .ok d' => .done (p.toPhase d' .dataWrite) [ackOnly ab]

/-- WRITE in DataWrite (R115). `sel = none` does not occur there; it is a desynchronisation (log 20). -/
def Plugs.onStore {δ : Type} (p : Plugs δ) (m : BusMessage) (d : δ) : Reaction δ :=
  match (p.core d).sel with
  | none => .raise .protocolDesync (.message m)
  | some i =>
    let w := p.writeReg d i m.data
    .done (p.stepSel w.1 i) (w.2 ++ [ackOnly m.ab])

/-- WRITE (R113): by phase. -/
def Plugs.onWrite {δ : Type} (p : Plugs δ) (m : BusMessage) (d : δ) : Reaction δ :=
  match (p.core d).phase with
  | .addressPhase => p.onAddress m.ab m.data d
  | .dataWrite => p.onStore m d
  | .idle | .dataRead => .raise .protocolDesync (.message m)

/-- READ (R116): the byte before the hook, then the hook, then the increment. -/
def Plugs.onRead {δ : Type} (p : Plugs δ) (m : BusMessage) (d : δ) : Reaction δ :=
  match (p.core d).phase, (p.core d).sel with
  | .dataRead, some i =>
    .done (p.stepSel (p.postRead d i) i) [ackWithByte (regRead (p.core d).regs i) m.ab]
  | _, _ => .raise .protocolDesync (.message m)

/-- STOP (R117): the same writes as the protocol reset, no reply. -/
def Plugs.onStop {δ : Type} (p : Plugs δ) (d : δ) : Reaction δ := .done (p.reset d) []

/-- The messages at a two-phase device (R119). -/
def Plugs.handle {δ : Type} (p : Plugs δ) (m : BusMessage) (d : δ) : Reaction δ :=
  match m.kind with
  | .startW => p.onStartW m d
  | .startR => p.onStartR m d
  | .write => p.onWrite m d
  | .read => p.onRead m d
  | .stop => p.onStop d
  | .malformed => .raise .protocolDesync (.message m)

/-- `phase <- Idle; sel <- none` (R100). -/
def RegCore.reset (c : RegCore) : RegCore := { c with phase := .idle, sel := none }

end Sys2Proof.Machine
end

