-- ==== Sys2Proof/Machine/Keypad.lean ====
section
/-! DEFINITION. The keypad controller (44_keypad.md): FIFO, interrupt line, debounced release. -/

namespace Sys2Proof.Machine

/-- The keypad with its register file replaced. -/
def Keypad.withRegs (d : Keypad) (regs : List Byte) : Keypad := { d with core := { d.core with regs := regs } }

/-! ## Key events in (R180 to R184) -/

/-- `AddKeyRawEvent(byte)` past its guard (R181): dropped with `kp_overflow` set when the FIFO is full; else the
count, the slot, and if enabled the line, the status bit and the unacknowledged mask. -/
def Keypad.queueEvent (d : Keypad) (b : Byte) : Keypad × List Effect :=
  let n := kpCount d.core.regs
  if kpFifoCap ≤ n then ({ d with overflow := true }, [])
  else
    let regs := regWrite (regWrite d.core.regs kpKeyLckEc (kpWithCount d.core.regs (n + 1))) (kpKeyEventA + n) b
    if kpInterruptEnabled regs then
      ({ d.withRegs (regWrite regs kpIntStat (regRead regs kpIntStat ||| 0x01)) with
         intN := false, unacked := d.unacked ||| 0x01 },
       [.pin .intN false])
    else (d.withRegs regs, [])

/-- `AddKeyRawEvent(byte)` (R181): refused, with no effect, when the code is 0 (D25). -/
def Keypad.addRawEvent (d : Keypad) (b : Byte) : Keypad × List Effect :=
  if keyEventCode b = 0 then (d, []) else d.queueEvent b

/-- Whether the key exists (R180). -/
def keyExists (cfg : Config) (row col : Nat) : Bool := decide (row < cfg.kpRows) && decide (col < cfg.kpCols)

/-- `AddKeyEvent(direction, row, col)` (R180): refused, with no effect, outside the bounds. -/
def Keypad.addEvent (cfg : Config) (d : Keypad) (press : Bool) (row col : Nat) : Keypad × List Effect :=
  if keyExists cfg row col then d.addRawEvent (keyEventByte press (keyCode row col)) else (d, [])

/-- `AddKeyPressAndRelease(row, col)` (R183): a release of this key still pending is cancelled, the press is
queued now, and a new release is scheduled; `env.id` is the id it gets. -/
def Keypad.pressAndRelease (env : Env) (d : Keypad) (row col : Nat) : Keypad × List Effect :=
  if keyExists env.cfg row col then
    let code := keyCode row col
    let cancelled := match mapFind? d.pendingRelease code with
      | some id => ({ d with pendingRelease := mapErase d.pendingRelease code }, [Effect.cancel id])
      | none => (d, [])
    let pressed := cancelled.1.addEvent env.cfg true row col
    ({ pressed.1 with pendingRelease := mapInsert pressed.1.pendingRelease code env.id },
     cancelled.2 ++ pressed.2 ++ [.schedule env.cfg.kpReleaseDelayUs (.keyRelease code)])
  else (d, [])

/-- `KeyReleaseFire(code)` (R184). -/
def Keypad.releaseFire (d : Keypad) (code : Nat) : Keypad × List Effect :=
  Keypad.addRawEvent { d with pendingRelease := mapErase d.pendingRelease code } (keyEventByte false code)

/-! ## Reading events out (R186) -/

/-- The register file after a pop of a FIFO that holds `n` events: slots 1..n-1 move down by one, slot n-1 is
zeroed, the count falls by one. -/
def fifoPopped (regs : List Byte) (n : Nat) : List Byte :=
  regs.mapIdx (fun j b =>
    if j = kpKeyLckEc then kpWithCount regs (n - 1)
    else if kpKeyEventA ≤ j ∧ j + 1 < kpKeyEventA + n then regRead regs (j + 1)
    else if j + 1 = kpKeyEventA + n then 0
    else b)

/-- FIFO pop (R186): nothing on an empty FIFO; the interrupt is not acknowledged. -/
def Keypad.pop (d : Keypad) : Keypad :=
  let n := kpCount d.core.regs
  if n = 0 then d else d.withRegs (fifoPopped d.core.regs n)

/-- `PostRead_KP(i)` (R175): the pop on `KP_KEY_EVENT_A` only. -/
def Keypad.postRead (d : Keypad) (i : Nat) : Keypad := if i = kpKeyEventA then d.pop else d

/-! ## Writes (R187 to R191) -/

/-- Interrupt acknowledge (R188): AND-NOT on the status and on the mask; the line is released when the mask
reaches zero. -/
def Keypad.acknowledge (d : Keypad) (v : Byte) : Keypad × List Effect :=
  let d1 : Keypad :=
    { d.withRegs (regWrite d.core.regs kpIntStat (andNot (regRead d.core.regs kpIntStat) v)) with
      unacked := andNot d.unacked v }
  if d1.unacked = 0 ∧ d1.intN = false then ({ d1 with intN := true }, [.pin .intN true]) else (d1, [])

/-- `WriteReg_KP(i, v)` (R187): the acknowledge, the discarded writes (R189), the plain stores (R190, R191). -/
def Keypad.writeReg (d : Keypad) (i : Nat) (v : Byte) : Keypad × List Effect :=
  if i = kpIntStat then d.acknowledge v
  else if i = kpKeyLckEc ∨ (kpKeyEventA ≤ i ∧ i ≤ kpKeyEventA + 9) then (d, [])
  else (d.withRegs (regWrite d.core.regs i v), [])

/-- The keypad in the two-phase machine (R110, R175). -/
def kpPlugs : Plugs Keypad where
  core := Keypad.core
  setCore := fun d core => { d with core := core }
  last := kpLast
  select := selectIndex Keypad.core (fun d core => { d with core := core }) kpLast
  writeReg := Keypad.writeReg
  postRead := Keypad.postRead
  autoInc := fun _ => true
  reset := fun d => { d with core := d.core.reset }

end Sys2Proof.Machine
end

