-- ==== Sys2Proof/Machine/Led.lean ====
section
/-! DEFINITION. The LED driver (45_led_driver.md). -/

namespace Sys2Proof.Machine

/-- `Select_LED(b)` (R207): bits 6:5 first (Unimplemented), then the range (OutOfRange), then `sel` and
`autoinc`. -/
def Led.select (d : Led) (b : Byte) : Except (Cause × FaultInfo) Led :=
  let reg := (b.extractLsb' 0 5).toNat
  if b.extractLsb' 5 2 ≠ 0 then .error (.unimplemented, .feature b.toNat)
  else if ledLast < reg then .error (.outOfRange, .index b.toNat)
  else .ok { d with core := { d.core with sel := some reg }, autoinc := b.getLsbD 7 }

/-- The LED driver in the two-phase machine (R110, R206): every register is plain storage (R208, R213). -/
def ledPlugs : Plugs Led where
  core := Led.core
  setCore := fun d core => { d with core := core }
  last := ledLast
  select := Led.select
  writeReg := fun d i v => ({ d with core := { d.core with regs := regWrite d.core.regs i v } }, [])
  postRead := fun d _ => d
  autoInc := Led.autoinc
  reset := fun d => { d with core := d.core.reset, autoinc := false }

/-- The duty-equivalent byte of channel `n` (R212), or none in PWM-with-grouping mode. -/
def ledDuty (regs : List Byte) (n : Nat) : Option Byte :=
  let mode := ledMode regs n
  if mode = 0 then some 0x00
  else if mode = 1 then some 0xFF
  else if mode = 2 then some (regRead regs (ledPwm0 + n))
  else none

/-- `GetCurrentState()` (R212): the sixteen bytes, or the lowest channel in mode 0b11. -/
def ledCurrentState (regs : List Byte) : Except Nat (List Byte) :=
  match (List.range ledChannels).find? (fun n => (ledDuty regs n).isNone) with
  | some n => .error n
  | none => .ok ((List.range ledChannels).map (fun n => (ledDuty regs n).getD 0))

end Sys2Proof.Machine
end

