-- ==== Sys2Proof/Machine/Rtc.lean ====
section
/-! DEFINITION. The real-time clock (42_rtc.md): its bus side, the carry chain, the tick and the square wave. -/

namespace Sys2Proof.Machine

/-! ## Bus side (R130, R131, R133) -/

/-- The RTC in the two-phase machine (R110, R130): plain stores, no read hook, always auto-incrementing. -/
def rtcPlugs (c : Config) : Plugs Rtc where
  core := Rtc.core
  setCore := fun d core => { d with core := core }
  last := c.rtcLast
  select := selectIndex Rtc.core (fun d core => { d with core := core }) c.rtcLast
  writeReg := fun d i v => ({ d with core := { d.core with regs := regWrite d.core.regs i v } }, [])
  postRead := fun d _ => d
  autoInc := fun _ => true
  reset := fun d => { d with core := d.core.reset }

/-! ## Well-formed time (R132) -/

def onesWf (b : Byte) : Bool := decide ((b &&& 0x0F).toNat ≤ 9)
def tensOf (b m : Byte) : Nat := (b &&& m).toNat / 16

/-- Seconds and minutes: ones at most 9, tens at most 5. -/
def sixtyWf (b m : Byte) : Bool := onesWf b && decide (tensOf b m ≤ 5)

def hourWf (b : Byte) : Bool :=
  if b.getLsbD 6 then
    onesWf b && decide (1 ≤ bcdDec b maskHour12) && decide (bcdDec b maskHour12 ≤ 12)
  else onesWf b && decide (bcdDec b maskHour24 ≤ 23)

def dowOf (b : Byte) : Nat := (b &&& 0x07).toNat
def dowWf (b : Byte) : Bool := decide (1 ≤ dowOf b)
def dateWf (b : Byte) : Bool := onesWf b && decide (1 ≤ bcdDec b maskDate) && decide (bcdDec b maskDate ≤ 31)
def monthWf (b : Byte) : Bool := onesWf b && decide (1 ≤ bcdDec b maskMonth) && decide (bcdDec b maskMonth ≤ 12)
def yearWf (b : Byte) : Bool := onesWf b && decide (tensOf b maskYear ≤ 9)

/-- The time registers are well-formed (R132). -/
def timeWf (regs : List Byte) : Bool :=
  sixtyWf (regRead regs rtcSec) maskSec && sixtyWf (regRead regs rtcMin) maskMin &&
  hourWf (regRead regs rtcHour) && dowWf (regRead regs rtcDow) && dateWf (regRead regs rtcDate) &&
  monthWf (regRead regs rtcMonth) && yearWf (regRead regs rtcYear)

/-! ## The carry chain (R136 to R146) -/

/-- The chain at work: the register file and the draw counter. -/
structure Chain where
  regs  : List Byte
  draws : Nat
deriving DecidableEq, Repr

/-- `SetField(i, mask, v)` (R136). -/
def Chain.setField (c : Chain) (i : Nat) (m : Byte) (v : Nat) : Chain :=
  { c with regs := regWrite c.regs i (withField (regRead c.regs i) m (bcdEnc v m)) }

/-- An ill-formed register (R146): its field bits `mask | 0x0F` become a free value, every other bit is kept; the
same draw decides the carry (log 13). -/
def Chain.freeField (c : Chain) (i : Nat) (m : Byte) : Chain :=
  { regs := regWrite c.regs i (withField (regRead c.regs i) m (Config.freeByte c.draws)), draws := c.draws + 1 }

/-- The carry out of an ill-formed register (R146), of the draw `freeField` uses. -/
def Chain.freeCarry (c : Chain) : Bool := Config.freeCarry c.draws

/-- `RTC_DIM(mm, yy)` (R145). -/
def daysInMonth (r : DimRule) (mm yy : Nat) : Nat :=
  match r with
  | .byTable =>
    if mm = 2 then (if yy % 4 = 0 then 29 else 28)
    else if mm = 4 ∨ mm = 6 ∨ mm = 9 ∨ mm = 11 then 30
    else 31
  | .custom offsets => 28 + offsets / 4 ^ (12 * yy + (mm - 1)) % 4

/-- Year (R144), or a free value if it is ill-formed (R146). -/
def Chain.year (c : Chain) (carry : Bool) : Chain :=
  let b := regRead c.regs rtcYear
  if yearWf b then (if carry then c.setField rtcYear maskYear ((bcdDec b maskYear + 1) % 100) else c)
  else c.freeField rtcYear maskYear

/-- Month (R143), or a free value and a free carry if it is ill-formed (R146); then the year. `carry` is the
date's carry. Month and year are read on every new day (R142), so an ill-formed one is free on every new day. -/
def Chain.month (c : Chain) (carry : Bool) : Chain :=
  let b := regRead c.regs rtcMonth
  if monthWf b then
    if carry then
      if bcdDec b maskMonth < 12 then (c.setField rtcMonth maskMonth (bcdDec b maskMonth + 1)).year false
      else (c.setField rtcMonth maskMonth 1).year true
    else c.year false
  else (c.freeField rtcMonth maskMonth).year c.freeCarry

/-- The length of the current month (R145); a free value in 28..31 if the month or the year is ill-formed (R146,
D17). The flag says whether a free value was drawn. -/
def Chain.monthLength (cfg : Config) (c : Chain) : Nat × Bool :=
  let mb := regRead c.regs rtcMonth
  let yb := regRead c.regs rtcYear
  if monthWf mb && yearWf yb then (daysInMonth cfg.rtcDim (bcdDec mb maskMonth) (bcdDec yb maskYear), false)
  else (28 + (Config.freeByte c.draws).toNat % 4, true)

/-- Date (R142); then the month. -/
def Chain.date (cfg : Config) (c : Chain) : Chain :=
  let b := regRead c.regs rtcDate
  let dim := c.monthLength cfg
  let c := if dim.2 then { c with draws := c.draws + 1 } else c
  if dateWf b then
    if bcdDec b maskDate < dim.1 then (c.setField rtcDate maskDate (bcdDec b maskDate + 1)).month false
    else (c.setField rtcDate maskDate 1).month true
  else (c.freeField rtcDate maskDate).month c.freeCarry

/-- The day of week (R141): bits 2:0, 7 to 1; bits 7:3 kept. 0 is ill-formed: bits 2:0 become free (R146). -/
def Chain.dayOfWeek (c : Chain) : Chain :=
  let b := regRead c.regs rtcDow
  if dowWf b then
    let d' := if 7 ≤ dowOf b then 1 else dowOf b + 1
    { c with regs := regWrite c.regs rtcDow ((b &&& ~~~(0x07 : Byte)) ||| BitVec.ofNat 8 d') }
  else
    { regs := regWrite c.regs rtcDow ((b &&& ~~~(0x07 : Byte)) ||| (Config.freeByte c.draws &&& 0x07))
      draws := c.draws + 1 }

/-- `NewDay()` (R141, R142). -/
def Chain.newDay (cfg : Config) (c : Chain) : Chain := c.dayOfWeek.date cfg

/-- The AM/PM flag toggled (R140). -/
def Chain.togglePm (c : Chain) : Chain :=
  { c with regs := regWrite c.regs rtcHour (regRead c.regs rtcHour ^^^ rtcPmBit) }

/-- `NewDay()` when the flag now says AM (R140). -/
def Chain.newDayIfAm (cfg : Config) (c : Chain) : Chain := if rtcPm c.regs then c else c.newDay cfg

/-- Hours in 12-hour mode (R140), by `RTC_PM_TOGGLE`. -/
def Chain.hours12 (cfg : Config) (c : Chain) : Chain :=
  let h := bcdDec (regRead c.regs rtcHour) maskHour12
  match cfg.rtcPmToggle with
  | .atRollover =>
    if h < 12 then c.setField rtcHour maskHour12 (h + 1)
    else ((c.setField rtcHour maskHour12 1).togglePm).newDayIfAm cfg
  | .at11To12 =>
    if h = 11 then ((c.setField rtcHour maskHour12 12).togglePm).newDayIfAm cfg
    else if h = 12 then c.setField rtcHour maskHour12 1
    else c.setField rtcHour maskHour12 (h + 1)

/-- Hours in 24-hour mode (R139). -/
def Chain.hours24 (cfg : Config) (c : Chain) : Chain :=
  let h := bcdDec (regRead c.regs rtcHour) maskHour24
  if h < 23 then c.setField rtcHour maskHour24 (h + 1)
  else (c.setField rtcHour maskHour24 0).newDay cfg

/-- The hours' tens mask in the mode the register says (R15, R16). -/
def hourMask (b : Byte) : Byte := if b.getLsbD 6 then maskHour12 else maskHour24

/-- Hours (R139, R140), or a free value and a free carry (R146). -/
def Chain.hours (cfg : Config) (c : Chain) : Chain :=
  let b := regRead c.regs rtcHour
  if hourWf b then (if b.getLsbD 6 then c.hours12 cfg else c.hours24 cfg)
  else
    let c' := c.freeField rtcHour (hourMask b)
    if c.freeCarry then c'.newDay cfg else c'

/-- Minutes (R138). -/
def Chain.minutes (cfg : Config) (c : Chain) : Chain :=
  let b := regRead c.regs rtcMin
  if sixtyWf b maskMin then
    if bcdDec b maskMin < 59 then c.setField rtcMin maskMin (bcdDec b maskMin + 1)
    else (c.setField rtcMin maskMin 0).hours cfg
  else
    let c' := c.freeField rtcMin maskMin
    if c.freeCarry then c'.hours cfg else c'

/-- `RtcSecond()`: the chain from the seconds on (R137). -/
def Chain.seconds (cfg : Config) (c : Chain) : Chain :=
  let b := regRead c.regs rtcSec
  if sixtyWf b maskSec then
    if bcdDec b maskSec < 59 then c.setField rtcSec maskSec (bcdDec b maskSec + 1)
    else (c.setField rtcSec maskSec 0).minutes cfg
  else
    let c' := c.freeField rtcSec maskSec
    if c.freeCarry then c'.minutes cfg else c'

/-! ## The tick (R135) and the square wave (R147) -/

/-- `RtcSqwUpdate()` (R147). -/
def rtcSquareWave (cfg : Config) (d : Rtc) : Rtc × List Effect :=
  if rtcSquareEnabled d.core.regs then
    let lvl := d.osc.getLsbD (cfg.rtcSqwBit.getD (rtcRate d.core.regs) 0)
    if lvl = d.sqwLevel then (d, [])
    else ({ d with sqwLevel := lvl, sqwPin := lvl }, [.pin .sqw lvl])
  else (d, [])

/-- `RtcSecond()` on the device. -/
def rtcSecond (env : Env) (d : Rtc) : Rtc × List Effect :=
  let c := Chain.seconds env.cfg { regs := d.core.regs, draws := env.draws }
  ({ d with core := { d.core with regs := c.regs } }, [.drew (c.draws - env.draws)])

/-- `RtcTick` (R135): nothing while `RTC_CH` is set; else the counter, the second on its wraparound, and the
square wave. -/
def rtcTick (env : Env) (d : Rtc) : Rtc × List Effect :=
  if rtcHalted d.core.regs then (d, [])
  else
    let d1 : Rtc := { d with osc := d.osc + 1 }
    let d2 := if d1.osc = 0 then rtcSecond env d1 else (d1, [])
    let d3 := rtcSquareWave env.cfg d2.1
    (d3.1, d2.2 ++ d3.2)

end Sys2Proof.Machine
end

