-- ==== Sys2Proof/Machine/Adapter.lean ====
section
/-! DEFINITION. The bus adapter (40_bus_adapter.md): address match, delivery, protocol reset, and the delivery of
one notification to every subscriber. -/

namespace Sys2Proof.Machine

/-- `Reset_D()` (R100): the sequencing state only. -/
def DevState.reset : DevState → DevState
  | .rtc d => .rtc { d with core := d.core.reset }
  | .eeprom d => .eeprom d.reset
  | .keypad d => .keypad { d with core := d.core.reset }
  | .led d => .led { d with core := d.core.reset, autoinc := false }
  | .display d => .display d.reset

/-- `HandleMessage_D` (R102): by kind of device. -/
def DevState.handle (env : Env) (m : BusMessage) : DevState → Reaction DevState
  | .rtc d => ((rtcPlugs env.cfg).handle m d).map .rtc
  | .eeprom d => (d.handle env.cfg m).map .eeprom
  | .keypad d => (kpPlugs.handle m d).map .keypad
  | .led d => (ledPlugs.handle m d).map .led
  | .display d => (d.handle env m).map .display

/-- A matched message (R93 to R97): MALFORMED is fatal, a STOP is delivered and then resets, the rest is
delivered. -/
def DevState.matched (env : Env) (m : BusMessage) (d : DevState) : Reaction DevState :=
  match m.kind with
  | .malformed => .raise .protocolDesync (.message m)
  | .stop => (d.handle env m).map DevState.reset
  | .startW | .startR | .write | .read => d.handle env m

/-- An unmatched message (R92): the protocol reset if it carries START, nothing otherwise. -/
def DevState.unmatched (m : BusMessage) (d : DevState) : Reaction DevState :=
  .done (if m.conditions.start then d.reset else d) []

/-- The adapter of one device (R91). -/
def Device.respond (env : Env) (m : BusMessage) (d : Device) : Reaction DevState :=
  if d.accepts m.address then d.st.matched env m else d.st.unmatched m

/-- The adapter of device `k` on one notification (R91); a destroyed device has none (R312). -/
def State.adapter (s : State) (m : BusMessage) (k : Nat) : State :=
  match s.liveDevice? k with
  | some d => s.react k d (d.respond s.env m)
  | none => s

/-- Subscriber `k` of one notification: the device at that position, or the listener at the position after the
last device. After an abort no subscriber runs (R283, R285). -/
def State.subscriber (m : BusMessage) (s : State) (k : Nat) : State :=
  match s.aborted with
  | some _ => s
  | none => if k = s.devices.length then s.listenOut m else s.adapter m k

/-- One notification on BUS_OUT, seen by every subscriber in the host's order (R54, R91). -/
def State.deliver (s : State) (m : BusMessage) : State :=
  (deliveryOrder s.devices.length s.order).foldl (State.subscriber m) { s with ab := m.ab }

end Sys2Proof.Machine
end

