-- ==== Sys2Proof/Machine/Bus.lean ====
section
/-! DEFINITION. The meanings of the seven bus operations (R66): five host words, two replies. -/

namespace Sys2Proof.Machine

/-- A message with one framing condition. -/
def startMessage (data : Byte) (address : BusAddress) (rnw : Bool) : BusMessage :=
  { address := address, rnw := rnw, data := data,
    conditions := { start := true, stop := false, write := false, read := false } }
def writeMessage (data : Byte) (address : BusAddress) (rnw : Bool) : BusMessage :=
  { address := address, rnw := rnw, data := data,
    conditions := { start := false, stop := false, write := true, read := false } }
def readMessage (data : Byte) (address : BusAddress) (rnw : Bool) : BusMessage :=
  { address := address, rnw := rnw, data := data,
    conditions := { start := false, stop := false, write := false, read := true } }
def stopMessage (data : Byte) (address : BusAddress) (rnw : Bool) : BusMessage :=
  { address := address, rnw := rnw, data := data,
    conditions := { start := false, stop := true, write := false, read := false } }

/-- START_W (R93; at the devices R111, R161, R221; unmatched R92; listener R261). -/
def execStartW (data : Byte) (address : BusAddress) (s : State) : Host.Outcome State Fault Refusal :=
  s.unlessAborted (fun s => s.deliver (startMessage data address false))

/-- START_R (R93; at the devices R112, R164, R221; unmatched R92; listener R261). -/
def execStartR (data : Byte) (address : BusAddress) (s : State) : Host.Outcome State Fault Refusal :=
  s.unlessAborted (fun s => s.deliver (startMessage data address true))

/-- WRITE (R94; at the devices R113 to R115, R162, R163, R165, R221; listener R262). -/
def execWrite (data : Byte) (address : BusAddress) (rnw : Bool) (s : State) : Host.Outcome State Fault Refusal :=
  s.unlessAborted (fun s => s.deliver (writeMessage data address rnw))

/-- READ (R95; at the devices R116, R166, R221). -/
def execRead (data : Byte) (address : BusAddress) (rnw : Bool) (s : State) : Host.Outcome State Fault Refusal :=
  s.unlessAborted (fun s => s.deliver (readMessage data address rnw))

/-- STOP (R97; at the devices R117, R167, R221; listener R264). -/
def execStop (data : Byte) (address : BusAddress) (rnw : Bool) (s : State) : Host.Outcome State Fault Refusal :=
  s.unlessAborted (fun s => s.deliver (stopMessage data address rnw))

/-- ACK (R98): AckOnly's word, whose data byte is 0x00 (R65), raised on BUS_IN (log 17). -/
def execAck (_data : Byte) (address : BusAddress) (rnw : Bool) (s : State) : Host.Outcome State Fault Refusal :=
  s.unlessAborted (fun s => s.emitBusIn (ackWord (addressByte address rnw)))

/-- ACK_READ (R99): AckWithByte's word raised on BUS_IN; the listener appends its byte (R263). -/
def execAckRead (data : Byte) (address : BusAddress) (rnw : Bool) (s : State) : Host.Outcome State Fault Refusal :=
  s.unlessAborted (fun s => s.emitBusIn (ackReadWord data (addressByte address rnw)))

end Sys2Proof.Machine
end

