-- ==== Sys2Proof/Machine/DisplayCommands.lean ====
section
/-! DEFINITION. The meanings of the display's control bytes, PRINT and multi-byte commands: each is the pseudocode
of its rule on the display in focus (log 9). -/

namespace Sys2Proof.Machine

/-- A display operation carried out on the display in focus; nothing where the focus is on no display. -/
def State.onDisplay (s : State) (f : Env → Display → Display × List Effect) : State :=
  match s.liveDevice? s.focus with
  | some dev =>
    match dev.st with
    | .display d => s.react s.focus dev (.done (.display (f s.env d).1) (f s.env d).2)
    | .rtc _ | .eeprom _ | .keypad _ | .led _ => s
  | none => s

/-- BS (R232). -/
def execBs (s : State) : Host.Outcome State Fault Refusal :=
  s.unlessAborted (fun s => s.onDisplay (fun env d => d.backspace env))

/-- HT (R233): `Advance()`, nothing drawn. -/
def execHt (s : State) : Host.Outcome State Fault Refusal :=
  s.unlessAborted (fun s => s.onDisplay (fun env d => (d.advance env.cfg, [])))

/-- LF (R234). -/
def execLf (s : State) : Host.Outcome State Fault Refusal :=
  s.unlessAborted (fun s => s.onDisplay (fun env d => (d.lineFeed env.cfg, [])))

/-- HOM (R235). -/
def execHom (s : State) : Host.Outcome State Fault Refusal :=
  s.unlessAborted (fun s => s.onDisplay (fun _ d => (d.home, [])))

/-- CLR (R236). -/
def execClr (s : State) : Host.Outcome State Fault Refusal :=
  s.unlessAborted (fun s => s.onDisplay (fun env d => (d.clear env.cfg, [])))

/-- CR (R237). -/
def execCr (s : State) : Host.Outcome State Fault Refusal :=
  s.unlessAborted (fun s => s.onDisplay (fun _ d => (d.carriageReturn, [])))

/-- PRINT, 0x20..0x3F (R228). -/
def execPrint20 (c : BitVec 5) (s : State) : Host.Outcome State Fault Refusal :=
  s.unlessAborted (fun s => s.onDisplay (fun env d => (d.print env.cfg (print20Byte c), [])))

/-- PRINT, 0x40..0x7F (R228). -/
def execPrint40 (c : BitVec 6) (s : State) : Host.Outcome State Fault Refusal :=
  s.unlessAborted (fun s => s.onDisplay (fun env d => (d.print env.cfg (print40Byte c), [])))

/-- PRINT, 0x80..0xFF (R228). -/
def execPrint80 (c : BitVec 7) (s : State) : Host.Outcome State Fault Refusal :=
  s.unlessAborted (fun s => s.onDisplay (fun env d => (d.print env.cfg (print80Byte c), [])))

/-- ESC_INIT (R238). -/
def execEscInit (s : State) : Host.Outcome State Fault Refusal :=
  s.unlessAborted (fun s => s.onDisplay (fun env d => (d.initialise env.cfg, [])))

/-- US_CURSOR (R239); an out-of-range position is logged with the command's bytes. -/
def execUsCursor (xL xH yL yH : Byte) (s : State) : Host.Outcome State Fault Refusal :=
  s.unlessAborted (fun s => s.onDisplay (fun env d =>
    d.setCursor env.cfg xL xH yL yH [0x1F, 0x24, xL, xH, yL, yH]))

/-- US_MAG (R241); a factor out of range is logged with the command's bytes. -/
def execUsMag (x y : Byte) (s : State) : Host.Outcome State Fault Refusal :=
  s.unlessAborted (fun s => s.onDisplay (fun _ d => d.setMag x y [0x1F, 0x28, 0x67, 0x40, x, y]))

/-- US_IMAGE (R240); `g` is ignored. -/
def execUsImage (xL xH yL yH _g : Byte) (payload : List Byte) (s : State) : Host.Outcome State Fault Refusal :=
  s.unlessAborted (fun s => s.onDisplay (fun _ d => (d.image xL xH yL yH payload, [])))

/-- US_SCROLL (R243): a stub. -/
def execUsScroll (_wL _wH _cL _cH _sp : Byte) (s : State) : Host.Outcome State Fault Refusal :=
  s.unlessAborted (fun s => s.onDisplay (fun _ d => (d.stub, [])))

/-- US_BLINK (R243): a stub. -/
def execUsBlink (_p _t1 _t2 _c : Byte) (s : State) : Host.Outcome State Fault Refusal :=
  s.unlessAborted (fun s => s.onDisplay (fun _ d => (d.stub, [])))

/-- US_WIN_SELECT (R243): a stub. -/
def execUsWinSelect (_a : Byte) (s : State) : Host.Outcome State Fault Refusal :=
  s.unlessAborted (fun s => s.onDisplay (fun _ d => (d.stub, [])))

/-- US_WIN_DEFINE (R243): a stub. -/
def execUsWinDefine (_a _b : Byte) (_payload : List Byte) (s : State) : Host.Outcome State Fault Refusal :=
  s.unlessAborted (fun s => s.onDisplay (fun _ d => (d.stub, [])))

end Sys2Proof.Machine
end

