-- ==== Sys2Proof/Machine/OperandRows.lean ====
section
/-! DEFINITION. The meanings of the two operand rows: the writes that carry LEDCTL and EEADDR, at the device in
focus and in the phase their rules are for (log 9, log 18). -/

namespace Sys2Proof.Machine

/-- The address-selection byte at the LED driver in focus: R114 with `Select_LED` of R207, answered to the last
address byte. Nothing where the focus is on no LED driver. -/
def State.ledSelectByte (s : State) (b : Byte) : State :=
  match s.liveDevice? s.focus with
  | some dev =>
    match dev.st with
    | .led d => s.react s.focus dev ((ledPlugs.onAddress s.ab b d).map .led)
    | .rtc _ | .eeprom _ | .keypad _ | .display _ => s
  | none => s

/-- The two address bytes at the EEPROM in focus: R162 and R163. Nothing where the focus is on no EEPROM. -/
def State.eeAddressBytes (s : State) (hi lo : Byte) : State :=
  match s.liveDevice? s.focus with
  | some dev =>
    match dev.st with
    | .eeprom d => s.react s.focus dev ((d.address s.ab hi lo).map .eeprom)
    | .rtc _ | .keypad _ | .led _ | .display _ => s
  | none => s

/-- LEDCTL (R207). -/
def execLedctl (ai : Bool) (reg : BitVec 5) (s : State) : Host.Outcome State Fault Refusal :=
  s.unlessAborted (fun s => s.ledSelectByte (ledctlByte ai reg))

/-- EEADDR (R162, R163). -/
def execEeaddr (hi lo : Byte) (s : State) : Host.Outcome State Fault Refusal :=
  s.unlessAborted (fun s => s.eeAddressBytes hi lo)

end Sys2Proof.Machine
end

