-- ==== Sys2Proof/Machine/Dispatch.lean ====
section
/-! DEFINITION. Each instruction to its meaning. -/

namespace Sys2Proof.Machine

def exec (i : Instr) (s : State) : Host.Outcome State Fault Refusal :=
  match i with
  | .startW data address => Sys2Proof.Machine.execStartW data address s
  | .startR data address => Sys2Proof.Machine.execStartR data address s
  | .write data address rnw => Sys2Proof.Machine.execWrite data address rnw s
  | .read data address rnw => Sys2Proof.Machine.execRead data address rnw s
  | .stop data address rnw => Sys2Proof.Machine.execStop data address rnw s
  | .ack data address rnw => Sys2Proof.Machine.execAck data address rnw s
  | .ackRead data address rnw => Sys2Proof.Machine.execAckRead data address rnw s
  | .bs => Sys2Proof.Machine.execBs s
  | .ht => Sys2Proof.Machine.execHt s
  | .lf => Sys2Proof.Machine.execLf s
  | .hom => Sys2Proof.Machine.execHom s
  | .clr => Sys2Proof.Machine.execClr s
  | .cr => Sys2Proof.Machine.execCr s
  | .print20 c => Sys2Proof.Machine.execPrint20 c s
  | .print40 c => Sys2Proof.Machine.execPrint40 c s
  | .print80 c => Sys2Proof.Machine.execPrint80 c s
  | .escInit => Sys2Proof.Machine.execEscInit s
  | .usCursor xL xH yL yH => Sys2Proof.Machine.execUsCursor xL xH yL yH s
  | .usMag x y => Sys2Proof.Machine.execUsMag x y s
  | .usImage xL xH yL yH g payload => Sys2Proof.Machine.execUsImage xL xH yL yH g payload s
  | .usScroll wL wH cL cH sp => Sys2Proof.Machine.execUsScroll wL wH cL cH sp s
  | .usBlink p t1 t2 c => Sys2Proof.Machine.execUsBlink p t1 t2 c s
  | .usWinSelect a => Sys2Proof.Machine.execUsWinSelect a s
  | .usWinDefine a b payload => Sys2Proof.Machine.execUsWinDefine a b payload s
  | .ledctl ai reg => Sys2Proof.Machine.execLedctl ai reg s
  | .eeaddr hi lo => Sys2Proof.Machine.execEeaddr hi lo s

end Sys2Proof.Machine
end

