-- ==== Sys2Proof/Machine/Events.lean ====
section
/-! DEFINITION. The moves of the agents (R6, R7): the harness calls, the accessors, the host timer, construction
and destruction, and the arrival of an encoded operation. -/

namespace Sys2Proof.Machine

/-! ## Harness calls on a keypad (R180, R181, R183) -/

/-- A keypad operation on device `k`; refused, with no effect, where `k` is no live keypad. -/
def State.onKeypad (s : State) (k : Nat) (f : Env → Keypad → Keypad × List Effect) : State :=
  match s.liveDevice? k with
  | some dev =>
    match dev.st with
    | .keypad d => s.react k dev (.done (.keypad (f s.env d).1) (f s.env d).2)
    | .rtc _ | .eeprom _ | .led _ | .display _ => s
  | none => s

/-! ## Accessors (R212, R266, R295) -/

/-- `GetCurrentState()` on device `k` (R212): the answer, or the abort at the lowest channel in mode 0b11. -/
def State.getCurrentState (s : State) (k : Nat) : State :=
  match s.liveDevice? k with
  | some dev =>
    match dev.st with
    | .led d =>
      match ledCurrentState d.core.regs with
      | .ok out => { s with answers := s.answers ++ [.duty k out] }
      | .error n => s.raiseFatal k .unimplemented (.feature n)
    | .rtc _ | .eeprom _ | .keypad _ | .display _ => s
  | none => s

/-- `GetFinishedMessages()` (R266): the list is not cleared. -/
def State.getFinishedMessages (s : State) : State := { s with answers := s.answers ++ [.finished s.finished] }

/-- A consumer's snapshot of device `k` (R295): the register file, or the pixel grid and the text buffer. -/
def State.snapshot (s : State) (k : Nat) : State :=
  match s.liveDevice? k with
  | some dev =>
    match dev.st with
    | .rtc d => { s with answers := s.answers ++ [.registers k d.core.regs] }
    | .keypad d => { s with answers := s.answers ++ [.registers k d.core.regs] }
    | .led d => { s with answers := s.answers ++ [.registers k d.core.regs] }
    | .display d => { s with answers := s.answers ++ [.screen k d.px d.text] }
    | .eeprom _ => s
  | none => s

/-! ## The host timer (R274) -/

/-- The callback of an action's payload on its owner (R274). -/
def State.callback (s : State) (a : PendingAction) : State :=
  match s.liveDevice? a.owner with
  | some dev =>
    match a.payload, dev.st with
    | .rtcTick, .rtc d => s.react a.owner dev (.done (.rtc (rtcTick s.env d).1) (rtcTick s.env d).2)
    | .keyRelease code, .keypad d =>
      s.react a.owner dev (.done (.keypad (d.releaseFire code).1) (d.releaseFire code).2)
    | .busyEnd, .display d => s.react a.owner dev (.done (.display d.busyEnd.1) d.busyEnd.2)
    | _, _ => s
  | none => s

/-- `Fire` of the action with this id (R274): not offered, with no effect, unless it may fire now (log 30). -/
def State.fire (s : State) (id : Nat) : State :=
  match s.pending.find? (fun a => a.id == id) with
  | some a => if s.mayFire a then (s.takeAction a).callback a else s
  | none => s

/-! ## Construction and destruction (R310 to R312) -/

/-- A device constructed and attached (R311). -/
def State.attach (s : State) (spec : DeviceSpec) : State :=
  let b := constructDevice s.cfg s.now { devices := s.devices, pending := s.pending, nextId := s.nextId } spec
  { s with devices := b.devices, pending := b.pending, nextId := b.nextId }

/-- What a device forgets when it is destroyed: its handles on the actions cancelled with it (R185, R312). -/
def DevState.released : DevState → DevState
  | .keypad d => .keypad { d with pendingRelease := [] }
  | .display d => .display { d with busyTimer := none }
  | .rtc d => .rtc d
  | .eeprom d => .eeprom d
  | .led d => .led d

/-- Destruction of device `k` (R312): unsubscribed, every action it owns cancelled. -/
def State.destroy (s : State) (k : Nat) : State :=
  match s.liveDevice? k with
  | some dev =>
    { s.setDevice k { dev with live := false, st := dev.st.released } with
      pending := s.pending.filter (fun a => a.owner != k) }
  | none => s

/-! ## The arrival of an encoded operation -/

/-- Bits that are no instruction: a MALFORMED word is delivered (R92, R96, R265); display bytes that nothing
begins with are logged (R223, R224), an incomplete command does nothing (R227); a LEDCTL byte with bits 6:5 set
is what R207 says; a BUS_IN word that is no reply is not raised by any device (R65). DESIGN CHOICE (log 34), for
display bytes given as one operation: they are judged by the default command table, whatever table the configuration
has, and the one record holds all of them, also those past the byte that ends the match, which are not parsed. -/
def State.rejected (s : State) (enc : Encoded) (why : Reject) : State :=
  match enc, why with
  | .busOut w, _ => s.deliver (decodeMessage w)
  | .stream bytes, .unrecognized => s.onDisplay (fun _ d => (d, [.log bytes]))
  | .ledSelect b, _ => s.ledSelectByte b
  | .stream _, _ | .busIn _, _ | .eeAddress _ _, _ => s

/-- An encoded operation runs: the decoded instruction is executed. -/
def State.run (s : State) (enc : Encoded) : Host.Outcome State Fault Refusal :=
  match decode enc with
  | .ok i => exec i s
  | .error why => s.unlessAborted (fun s => s.rejected enc why)

/-- One move of an agent. -/
def State.event (s : State) (e : HostEvent) : Host.Outcome State Fault Refusal :=
  match e with
  | .operation order focus enc => State.run { s with order := order, focus := focus } enc
  | .advance cycles => s.unlessAborted (fun s => s.advance cycles)
  | .fire id => s.unlessAborted (fun s => s.fire id)
  | .addKeyEvent k press row col =>
    s.unlessAborted (fun s => s.onKeypad k (fun env d => d.addEvent env.cfg press row col))
  | .addKeyRawEvent k b => s.unlessAborted (fun s => s.onKeypad k (fun _ d => d.addRawEvent b))
  | .addKeyPressAndRelease k row col =>
    s.unlessAborted (fun s => s.onKeypad k (fun env d => d.pressAndRelease env row col))
  | .addKeyPressAndReleaseCode k code =>
    s.unlessAborted (fun s => s.onKeypad k (fun env d =>
      if code = 0 then (d, []) else d.pressAndRelease env (keyRow code) (keyCol code)))
  | .getCurrentState k => s.unlessAborted (fun s => s.getCurrentState k)
  | .getFinishedMessages => s.unlessAborted (fun s => s.getFinishedMessages)
  | .snapshot k => s.unlessAborted (fun s => s.snapshot k)
  | .registerOnComplete cb => s.unlessAborted (fun s => { s with onComplete := some cb })
  | .attach spec => s.unlessAborted (fun s => s.attach spec)
  | .destroy k => s.unlessAborted (fun s => s.destroy k)

/-- One step of the block: stuck when aborted (R283); otherwise the next move of the agents; with none, the block
waits (log 7). -/
def State.stepOnce (s : State) : Host.Outcome State Fault Refusal :=
  match s.inbox with
  | [] => s.unlessAborted (fun s => s)
  | e :: rest => State.event { s with inbox := rest } e

/-! ## Placing an operation -/

/-- The position of the first live device of a kind, or 0. -/
def firstOf (s : State) (p : DevState → Bool) : Nat := s.devices.findIdx (fun d => d.live && p d.st)

def DevState.isDisplay : DevState → Bool
  | .display _ => true
  | .rtc _ | .eeprom _ | .keypad _ | .led _ => false
def DevState.isLed : DevState → Bool
  | .led _ => true
  | .rtc _ | .eeprom _ | .keypad _ | .display _ => false
def DevState.isEeprom : DevState → Bool
  | .eeprom _ => true
  | .rtc _ | .keypad _ | .led _ | .display _ => false

/-- The device an encoded operation is for, when nothing else says so: the first of the kind its format is for. -/
def State.focusFor (s : State) : Encoded → Nat
  | .stream _ => firstOf s DevState.isDisplay
  | .ledSelect _ => firstOf s DevState.isLed
  | .eeAddress _ _ => firstOf s DevState.isEeprom
  | .busOut _ | .busIn _ => s.focus

/-- The operation placed as the next move of the agents, delivered in the order State holds (log 6). -/
def State.placed (s : State) (enc : Encoded) : State :=
  { s with inbox := .operation s.order (s.focusFor enc) enc :: s.inbox }

end Sys2Proof.Machine
end

