-- ==== Sys2Proof/Machine/Step.lean ====
section
/-! DEFINITION. One step, and where a table word is fetched from. -/

namespace Sys2Proof.Machine

/-- One step of the block: the next move of the agents. -/
def step (s : State) : Host.Outcome State Fault Refusal := s.stepOnce

/-- The state whose next step runs the operation with these table bits (log 6). -/
def State.withFetchWord (s : State) (nbits w : Nat) : State := s.placed (tableEncoded nbits w)

end Sys2Proof.Machine
end

