-- ==== Sys2Proof/Safety.lean ====
section
/-! DEFINITION. What counts as a legal configuration and a consistent state: the invariants of R34, R192, R246 and
the bounds of R12 to R30, in the terms the claims use. -/

namespace Sys2Proof.Machine

/-! ## Configuration (R4, U2, U4, U6, U12, U22, D25) -/

/-- How many fixed arguments a command of the display reads (R231). -/
def fixedArguments : DisplayCommand → Nat
  | .escInit => 0
  | .usCursor => 4
  | .usMag => 2
  | .usImage => 5
  | .usScroll => 5
  | .usBlink => 4
  | .usWinSelect => 1
  | .usWinDefine => 2

/-- The command table is prefix-free, its keys are not empty and its rows have their command's fixed length. -/
abbrev tableOk (t : List CommandRow) : Prop :=
  (t.Pairwise (fun r q => r.key.isPrefixOf q.key = false ∧ q.key.isPrefixOf r.key = false)) ∧
  (∀ r ∈ t, r.key ≠ [] ∧ r.fixedLen = fixedArguments r.command)

/-- A configuration R4 allows. -/
abbrev configOk (c : Config) : Prop :=
  0 < c.cyclesPerUs ∧ 0 < c.rtcTickPeriod ∧ rtcCtrl ≤ c.rtcLast ∧
  c.rtcSqwBit.length = 4 ∧ (∀ b ∈ c.rtcSqwBit, b ≤ 14) ∧
  1 ≤ c.eeSize ∧ c.eeSize ≤ 65536 ∧ Memory.wf c.eeInit ∧ (∀ e ∈ c.eeInit, e.1 < c.eeSize) ∧
  c.kpCols ≤ 10 ∧ keyCode (c.kpRows - 1) (c.kpCols - 1) ≤ 127 ∧
  1 ≤ c.dispW ∧ 1 ≤ c.dispH ∧ 1 ≤ c.glyphW ∧ 1 ≤ c.glyphH ∧ tableOk c.cmdTable

/-! ## One device -/

/-- A two-phase device: the file has LAST_D + 1 bytes, `sel` is an index of it (R34 item 2), a data phase has a
selection, Idle has none (R119). -/
abbrev coreOk (last : Nat) (c : RegCore) : Prop :=
  c.regs.length = last + 1 ∧ c.sel.all (fun i => decide (i ≤ last)) = true ∧
  (c.phase = .dataWrite ∨ c.phase = .dataRead → c.sel.isSome = true) ∧
  (c.phase = .idle → c.sel = none)

/-- The RTC: the pin shows the level last pushed (R27). -/
abbrev rtcOk (c : Config) (d : Rtc) : Prop := coreOk c.rtcLast d.core ∧ d.sqwPin = d.sqwLevel

/-- The FIFO (R34 item 3, R192 item 1): 0 to 10 events in the low slots, 0x00 above them; count bits 7:4 are 0. -/
abbrev fifoOk (regs : List Byte) : Prop :=
  kpCount regs ≤ kpFifoCap ∧ regRead regs kpKeyLckEc &&& 0xF0 = 0 ∧
  ∀ i < kpFifoCap, if i < kpCount regs then keyEventCode (kpSlot regs i) ≠ 0 else kpSlot regs i = 0

/-- The interrupt (R34 item 4, R192 item 2): the line is low exactly when an interrupt is unacknowledged; status
and mask agree; only bit 0 of either is ever set. -/
abbrev interruptOk (d : Keypad) : Prop :=
  (d.intN = false ↔ d.unacked ≠ 0) ∧ regRead d.core.regs kpIntStat = d.unacked ∧ d.unacked &&& 0xFE = 0

/-- The keypad: FIFO, interrupt, and at most one pending release per key code 1..127 (R22, R192). -/
abbrev keypadOk (d : Keypad) : Prop :=
  coreOk kpLast d.core ∧ fifoOk d.core.regs ∧ interruptOk d ∧
  Rising d.pendingRelease ∧ (∀ e ∈ d.pendingRelease, 1 ≤ e.1 ∧ e.1 ≤ 127)

/-- The LED driver. -/
abbrev ledOk (d : Led) : Prop := coreOk ledLast d.core

/-- The EEPROM: the buffer in canonical form below EE_SIZE, the pointer at most 65536 (R170), the high byte held
exactly in ADDRESSING_LOW, a pointer in the data phases, none in Idle (R168). -/
abbrev eepromOk (c : Config) (d : Eeprom) : Prop :=
  Memory.wf d.buf ∧ (∀ e ∈ d.buf, e.1 < c.eeSize) ∧ d.ptr.all (fun p => decide (p ≤ 65536)) = true ∧
  (d.addrHi.isSome = true ↔ d.phase = .addressingLow) ∧
  (d.phase = .dataWrite ∨ d.phase = .dataRead → d.ptr.isSome = true) ∧ (d.phase = .idle → d.ptr = none)

/-- The parser's buffers are empty (R12). -/
abbrev parserEmpty (d : Display) : Prop :=
  d.pfx = [] ∧ d.fixed = [] ∧ d.varArgs = [] ∧ d.needFixed = 0 ∧ d.needVar = 0 ∧ d.entry = none

/-- The parser in each of its states (R222 to R227, R246 item 3). -/
def parserOk (c : Config) (d : Display) : Bool :=
  match d.pstate with
  | .idle => decide (parserEmpty d)
  | .collectingCommandPrefix =>
    decide (d.pfx ≠ []) && tableBegins c.cmdTable d.pfx && (tableRow? c.cmdTable d.pfx).isNone &&
    decide (d.fixed = [] ∧ d.varArgs = [] ∧ d.needFixed = 0 ∧ d.needVar = 0 ∧ d.entry = none)
  | .collectingFixedArgs =>
    decide (d.entry = tableRow? c.cmdTable d.pfx) &&
    d.entry.any (fun r => decide (d.needFixed = r.fixedLen)) &&
    decide (d.fixed.length < d.needFixed ∧ d.varArgs = [] ∧ d.needVar = 0)
  | .collectingVariableArgs =>
    decide (d.entry = tableRow? c.cmdTable d.pfx) &&
    d.entry.any (fun r => decide (d.needFixed = r.fixedLen ∧ d.needVar = dynLength r.dynLen d.fixed)) &&
    decide (d.fixed.length = d.needFixed ∧ d.varArgs.length < d.needVar)

/-- The display: cursor, magnification and memories within their bounds (R25, R26), the parser consistent, empty
while the bus phase is Idle (R246 item 2), BUSY high exactly while the end of a pulse is pending (R244). -/
abbrev displayOk (c : Config) (d : Display) : Prop :=
  d.cx < c.dispW ∧ d.cy < c.dispH ∧ 1 ≤ d.magX ∧ d.magX ≤ 4 ∧ 1 ≤ d.magY ∧ d.magY ≤ 2 ∧
  d.px.length = c.dispH ∧ (∀ row ∈ d.px, row.length = c.dispW) ∧
  d.text.length = textRows c ∧ (∀ row ∈ d.text, row.length = textCols c) ∧
  parserOk c d = true ∧ (d.phase = .idle → d.pstate = .idle)

/-- A device's own invariant, by kind. -/
def deviceOk (c : Config) : DevState → Bool
  | .rtc d => decide (rtcOk c d)
  | .eeprom d => decide (eepromOk c d)
  | .keypad d => decide (keypadOk d)
  | .led d => decide (ledOk d)
  | .display d => decide (displayOk c d)

/-! ## Timed actions -/

/-- The pending actions: identifiers differ and are below the next fresh one (R271), owners are live devices
(R312), only a tick is periodic. -/
abbrev pendingOk (s : State) : Prop :=
  (s.pending.map PendingAction.id).Nodup ∧ (∀ a ∈ s.pending, a.id < s.nextId) ∧
  (∀ a ∈ s.pending, (s.liveDevice? a.owner).isSome = true) ∧
  (∀ a ∈ s.pending, a.payload = .rtcTick ∨ a.periodic = none)

/-- The live device at `k` and its pending actions: an RTC's recurring tick is pending (R134); every pending
release names a live action (R192 item 4); BUSY is high exactly while `busy_timer` names a live action. -/
def timersOk (pending : List PendingAction) (k : Nat) : DevState → Bool
  | .rtc d => pending.any (fun a => decide (a.id = d.timer ∧ a.owner = k ∧ a.payload = .rtcTick) && a.periodic.isSome)
  | .keypad d => d.pendingRelease.all (fun e =>
      pending.any (fun a => decide (a.id = e.2 ∧ a.owner = k ∧ a.payload = .keyRelease e.1)))
  | .display d =>
    decide (d.busy = d.busyTimer.isSome) &&
    d.busyTimer.all (fun t => pending.any (fun a => decide (a.id = t ∧ a.owner = k ∧ a.payload = .busyEnd)))
  | .led _ | .eeprom _ => true

/-- The invariant of the whole block. -/
abbrev State.Inv (s : State) : Prop :=
  configOk s.cfg ∧ pendingOk s ∧ s.finished.length ≤ transcriptCap ∧
  ∀ k, ∀ h : k < s.devices.length,
    deviceOk s.cfg (s.devices[k]).st = true ∧
    ((s.devices[k]).live = true → timersOk s.pending k (s.devices[k]).st = true)

/-! ## The devices a message reaches -/

/-- Device `k` is live and is `d`. -/
abbrev liveAt (s : State) (k : Nat) (d : Device) : Prop := s.liveDevice? k = some d

/-- No live device but possibly `k` accepts the address. -/
abbrev noOtherMatch (s : State) (k : Nat) (a : BusAddress) : Prop :=
  ∀ j, ∀ h : j < s.devices.length, j ≠ k → (s.devices[j]).live = true → (s.devices[j]).accepts a = false

/-- The run is not aborted, and of the live devices exactly `d`, at position `k`, accepts the address. -/
abbrev addressed (s : State) (k : Nat) (d : Device) (a : BusAddress) : Prop :=
  s.aborted = none ∧ liveAt s k d ∧ d.accepts a = true ∧ noOtherMatch s k a

/-- The run is not aborted, and the device in focus is live and is `d`. -/
abbrev focused (s : State) (d : Device) : Prop := s.aborted = none ∧ liveAt s s.focus d

/-- No live device accepts the address. -/
abbrev noMatch (s : State) (a : BusAddress) : Prop := ∀ d ∈ s.devices, d.live = true → d.accepts a = false

/-- Every live device that accepts the address satisfies `p`. -/
abbrev allMatched (s : State) (a : BusAddress) (p : DevState → Bool) : Prop :=
  ∀ d ∈ s.devices, d.live = true → d.accepts a = true → p d.st = true

/-- How many live devices accept the address. -/
def matchCount (s : State) (a : BusAddress) : Nat :=
  s.devices.countP (fun d => d.live && d.accepts a)

/-- The address of a word the host raises. -/
def hostAddress? : Instr → Option BusAddress
  | .startW _ a | .startR _ a | .write _ a _ | .read _ a _ | .stop _ a _ => some a
  | .ack _ _ _ | .ackRead _ _ _ | .bs | .ht | .lf | .hom | .clr | .cr | .print20 _ | .print40 _ | .print80 _
  | .escInit | .usCursor _ _ _ _ | .usMag _ _ | .usImage _ _ _ _ _ _ | .usScroll _ _ _ _ _ | .usBlink _ _ _ _
  | .usWinSelect _ | .usWinDefine _ _ _ | .ledctl _ _ | .eeaddr _ _ => none

/-! ## What the rules say a message does to a device -/

/-- The kind of a device (R102, R294). -/
def DevState.kind : DevState → DeviceKind
  | .rtc _ => .rtc
  | .eeprom _ => .eeprom
  | .keypad _ => .keypad
  | .led _ => .led
  | .display _ => .display

/-- A START_W taken (R111, R161, R221). -/
def DevState.startedWrite : DevState → DevState
  | .rtc d => .rtc { d with core := { d.core with phase := .addressPhase } }
  | .keypad d => .keypad { d with core := { d.core with phase := .addressPhase } }
  | .led d => .led { d with core := { d.core with phase := .addressPhase } }
  | .eeprom d => .eeprom { d with phase := .addressingHigh, addrHi := none }
  | .display d => .display { d with phase := .receiving }

/-- A register or an EEPROM address is selected, so a START_R can be taken (R112, R164); the display takes none
(R221). -/
def DevState.selected : DevState → Bool
  | .rtc d => d.core.sel.isSome
  | .keypad d => d.core.sel.isSome
  | .led d => d.core.sel.isSome
  | .eeprom d => d.ptr.isSome
  | .display _ => false

/-- A START_R taken (R112, R164). -/
def DevState.startedRead : DevState → DevState
  | .rtc d => .rtc { d with core := { d.core with phase := .dataRead } }
  | .keypad d => .keypad { d with core := { d.core with phase := .dataRead } }
  | .led d => .led { d with core := { d.core with phase := .dataRead } }
  | .eeprom d => .eeprom { d with phase := .dataRead, addrHi := none }
  | .display d => .display d

/-- The protocol reset, as the table of R100 writes it out. -/
def DevState.protocolReset : DevState → DevState
  | .rtc d => .rtc { d with core := { d.core with phase := .idle, sel := none } }
  | .keypad d => .keypad { d with core := { d.core with phase := .idle, sel := none } }
  | .led d => .led { d with core := { d.core with phase := .idle, sel := none }, autoinc := false }
  | .eeprom d => .eeprom { d with phase := .idle, addrHi := none, ptr := none }
  | .display d => .display
      { d with phase := .idle, pstate := .idle, pfx := [], fixed := [], varArgs := [], needFixed := 0, needVar := 0,
               entry := none }

/-- The phases that cannot take a WRITE (R113, R168, R221). -/
def DevState.refusesWrite : DevState → Bool
  | .rtc d => decide (d.core.phase = .idle ∨ d.core.phase = .dataRead)
  | .keypad d => decide (d.core.phase = .idle ∨ d.core.phase = .dataRead)
  | .led d => decide (d.core.phase = .idle ∨ d.core.phase = .dataRead)
  | .eeprom d => decide (d.phase = .idle ∨ d.phase = .dataRead)
  | .display d => decide (d.phase = .idle)

/-- The phases that cannot take a READ (R116, R168, R221). -/
def DevState.refusesRead : DevState → Bool
  | .rtc d => decide (d.core.phase ≠ .dataRead)
  | .keypad d => decide (d.core.phase ≠ .dataRead)
  | .led d => decide (d.core.phase ≠ .dataRead)
  | .eeprom d => decide (d.phase ≠ .dataRead)
  | .display _ => true

/-- A device on a message to address `a`: `f` where it accepts it, `g` where it does not; a destroyed device is
not reached. -/
def Device.heard (a : BusAddress) (f g : DevState → DevState) (d : Device) : Device :=
  if d.live then { d with st := if d.accepts a then f d.st else g d.st } else d

/-! ## Next states, written out -/

/-- AckOnly's event (R65, R98). -/
def ackEvent (ab : Byte) : OutputEvent := .busIn ((0x00 : Byte) ++ ab ++ (0x08 : Byte) ++ (0x00 : Byte))

/-- AckWithByte's event (R65, R99). -/
def ackReadEvent (b ab : Byte) : OutputEvent := .busIn (b ++ ab ++ (0x28 : Byte) ++ (0x00 : Byte))

/-- The state with device `k` in a new state. -/
def State.withDevice (s : State) (k : Nat) (d : Device) (st : DevState) : State :=
  { s with devices := s.devices.set k { d with st := st } }

/-- The state after a WRITE that device `k` takes into state `st` and acknowledges. -/
def State.wrote (s : State) (k : Nat) (d : Device) (st : DevState) (b ab : Byte) : State :=
  { s with
    devices := s.devices.set k { d with st := st }
    ab := ab
    trace := s.trace ++ [ackEvent ab]
    openTx := s.openTx.map (fun t => { t with writeBytes := t.writeBytes ++ [b] }) }

/-- The state after a READ that device `k` answers with byte `b`, going to state `st`. -/
def State.answered (s : State) (k : Nat) (d : Device) (st : DevState) (b ab : Byte) : State :=
  { s with
    devices := s.devices.set k { d with st := st }
    ab := ab
    trace := s.trace ++ [ackReadEvent b ab]
    openTx := s.openTx.map (fun t => { t with readBytes := t.readBytes ++ [b] }) }

/-- The run aborted by device `k` on a data message: nothing else is written (R283), but that the listener may
have heard the message before (R54): then its open transaction is `heard`. -/
def abortedAt (s t : State) (k : Nat) (c : Cause) (info : FaultInfo) (ab : Byte) (heard : Option Transaction) : Prop :=
  t = { s with ab := ab, aborted := some { cause := c, device := k, info := info } } ∨
  t = { s with ab := ab, aborted := some { cause := c, device := k, info := info }, openTx := heard }

/-- The open transaction with one more written byte (R262). -/
def heardByte (o : Option Transaction) (b : Byte) : Option Transaction :=
  o.map (fun t => { t with writeBytes := t.writeBytes ++ [b] })

/-- The byte a PRINT row stands for (R79): 0x20 to 0x3F, 0x40 to 0x7F, 0x80 to 0xFF. -/
def printByte? : Instr → Option Byte
  | .print20 c => some ((0b001 : BitVec 3) ++ c)
  | .print40 c => some ((0b01 : BitVec 2) ++ c)
  | .print80 c => some ((0b1 : BitVec 1) ++ c)
  | .startW _ _ | .startR _ _ | .write _ _ _ | .read _ _ _ | .stop _ _ _ | .ack _ _ _ | .ackRead _ _ _ | .bs | .ht
  | .lf | .hom | .clr | .cr | .escInit | .usCursor _ _ _ _ | .usMag _ _ | .usImage _ _ _ _ _ _
  | .usScroll _ _ _ _ _ | .usBlink _ _ _ _ | .usWinSelect _ | .usWinDefine _ _ _ | .ledctl _ _ | .eeaddr _ _ => none

/-- Instructions one after the other, up to the first stop. -/
def runAll : List Instr → State → Host.Outcome State Fault Refusal
  | [], s => .next s
  | i :: is, s =>
    match exec i s with
    | .next t => runAll is t
    | .fault r => .fault r
    | .refused r => .refused r

/-! ## The clock in decimal (R137 to R145) -/

/-- The time a register file shows. -/
structure ClockTime where
  sec   : Nat
  min   : Nat
  hour  : Nat
  pm    : Bool
  dow   : Nat
  date  : Nat
  month : Nat
  year  : Nat
deriving DecidableEq, Repr

/-- The time registers read as decimal numbers (R15, R16); AM in 24-hour mode. -/
def clockOf (regs : List Byte) : ClockTime where
  sec := bcdDec (regRead regs rtcSec) maskSec
  min := bcdDec (regRead regs rtcMin) maskMin
  hour := bcdDec (regRead regs rtcHour) (if rtcTwelveHour regs then maskHour12 else maskHour24)
  pm := rtcTwelveHour regs && rtcPm regs
  dow := dowOf (regRead regs rtcDow)
  date := bcdDec (regRead regs rtcDate) maskDate
  month := bcdDec (regRead regs rtcMonth) maskMonth
  year := bcdDec (regRead regs rtcYear) maskYear

/-- The next day (R141 to R144). -/
def ClockTime.nextDay (r : DimRule) (t : ClockTime) : ClockTime :=
  let t := { t with dow := if 7 ≤ t.dow then 1 else t.dow + 1 }
  if t.date < daysInMonth r t.month t.year then { t with date := t.date + 1 }
  else if t.month < 12 then { t with date := 1, month := t.month + 1 }
  else { t with date := 1, month := 1, year := (t.year + 1) % 100 }

/-- The next hour (R139, R140). -/
def ClockTime.nextHour (cfg : Config) (twelve : Bool) (t : ClockTime) : ClockTime :=
  if twelve then
    match cfg.rtcPmToggle with
    | .atRollover =>
      if t.hour < 12 then { t with hour := t.hour + 1 }
      else if t.pm then ({ t with hour := 1, pm := false } : ClockTime).nextDay cfg.rtcDim
      else { t with hour := 1, pm := true }
    | .at11To12 =>
      if t.hour = 11 then
        if t.pm then ({ t with hour := 12, pm := false } : ClockTime).nextDay cfg.rtcDim
        else { t with hour := 12, pm := true }
      else if t.hour = 12 then { t with hour := 1 }
      else { t with hour := t.hour + 1 }
  else if t.hour < 23 then { t with hour := t.hour + 1 }
  else ({ t with hour := 0 } : ClockTime).nextDay cfg.rtcDim

/-- The next second (R137, R138). -/
def ClockTime.nextSecond (cfg : Config) (twelve : Bool) (t : ClockTime) : ClockTime :=
  if t.sec < 59 then { t with sec := t.sec + 1 }
  else if t.min < 59 then { t with sec := 0, min := t.min + 1 }
  else ({ t with sec := 0, min := 0 } : ClockTime).nextHour cfg twelve

/-- So many ticks of one RTC one after the other (R135). -/
def rtcTicks (env : Env) : Nat → Rtc → Rtc
  | 0, d => d
  | n + 1, d => rtcTicks env n (rtcTick env d).1

end Sys2Proof.Machine
end

