-- ==== Sys2Proof/Certificates/Slice0/Obligations.lean ====
section
/-! DEFINITION. The statements for the provers. Each formalises the numbered rules its docstring cites; a clause
that rests on a choice of the model names the log entry. A rule or part of one that spec/ marks [decision] or
[derived] is the spec's own choice or inference, and a statement that rests on one has basis 'derived'. -/

open Sys2Proof Sys2Proof.Machine

/-- When the next move of the agents is the arrival of an encoded operation that decodes to i, step is exec of i, with
that move taken out of inbox and the delivery order and the focus of the move in place. withFetchWord places such a
move: the step after it runs the instruction decodeTableWord reads. That moves stand in inbox as data is the model's
choice (log 6). (R6, R43, R48) -/
def Obligations.StepRunsDecodedInstruction : Prop :=
  (∀ (s : State) (order : List Nat) (focus : Nat) (enc : Encoded) (rest : List HostEvent) (i : Instr),
    s.inbox = .operation order focus enc :: rest → decode enc = .ok i →
    step s = exec i { s with inbox := rest, order := order, focus := focus }) ∧
  (∀ (s : State) (nbits w : Nat) (i : Instr), decodeTableWord nbits w = some i →
    step (s.withFetchWord nbits w) = exec i { s with focus := s.focusFor (tableEncoded nbits w) })

/-- One word of each format, written out from the field tables, decodes to the instruction it stands for: the seven
bus operations, CLR, PRINT, ESC_INIT, US_CURSOR, LEDCTL and EEADDR. (R61, R62, R65, R66, R67, R70, R73, R231) -/
def Obligations.WrittenWordsDecode : Prop :=
  decode (.busOut 0x00A00100) = .ok (.startW 0x00 0x50) ∧ decode (.busOut 0x00A10100) = .ok (.startR 0x00 0x50) ∧
  decode (.busOut 0x5AA01000) = .ok (.write 0x5A 0x50 false) ∧
  decode (.busOut 0x00A12000) = .ok (.read 0x00 0x50 true) ∧
  decode (.busOut 0x00A00200) = .ok (.stop 0x00 0x50 false) ∧
  decode (.busIn 0x00A00800) = .ok (.ack 0x00 0x50 false) ∧
  decode (.busIn 0x5AA12800) = .ok (.ackRead 0x5A 0x50 true) ∧
  decode (.stream [0x0C]) = .ok .clr ∧ decode (.stream [0x41]) = .ok (.print40 0x01) ∧
  decode (.stream [0x1B, 0x40]) = .ok .escInit ∧
  decode (.stream [0x1F, 0x24, 0x10, 0x00, 0x02, 0x00]) = .ok (.usCursor 0x10 0x00 0x02 0x00) ∧
  decode (.ledSelect 0x94) = .ok (.ledctl true 0x14) ∧ decode (.eeAddress 0x01 0x10) = .ok (.eeaddr 0x01 0x10)

/-- For every well-formed instruction, with every operand at every value its encoding admits, decode (encode i) is i:
the bus words, the display bytes and commands with their payloads, the two operand rows. (R61, R62, R66, R67, R70,
R72, R73, R231) -/
def Obligations.DecodeOfEncode : Prop :=
  ∀ i : Instr, WellFormed i → decode (encode i) = .ok i

/-- For every 32-bit word on BUS_OUT: it decodes to START_W, START_R, WRITE, READ or STOP, with data 31:24, address
23:17 and rnw 16, exactly when the word under the row's mask has the row's value; it is malformed exactly when no row
matches. The same for ACK and ACK_READ on BUS_IN. (R62, R64, R66) -/
def Obligations.BusWordsMatchTheirRows : Prop :=
  ∀ w : BusWord,
    (decode (.busOut w) = .ok (.startW (w.extractLsb' 24 8) (w.extractLsb' 17 7)) ↔
      w &&& 0x00013300 = 0x00000100) ∧
    (decode (.busOut w) = .ok (.startR (w.extractLsb' 24 8) (w.extractLsb' 17 7)) ↔
      w &&& 0x00013300 = 0x00010100) ∧
    (decode (.busOut w) = .ok (.write (w.extractLsb' 24 8) (w.extractLsb' 17 7) (w.getLsbD 16)) ↔
      w &&& 0x00003300 = 0x00001000) ∧
    (decode (.busOut w) = .ok (.read (w.extractLsb' 24 8) (w.extractLsb' 17 7) (w.getLsbD 16)) ↔
      w &&& 0x00003300 = 0x00002000) ∧
    (decode (.busOut w) = .ok (.stop (w.extractLsb' 24 8) (w.extractLsb' 17 7) (w.getLsbD 16)) ↔
      w &&& 0x00003300 = 0x00000200) ∧
    (decode (.busOut w) = .error .malformedMessage ↔
      w &&& 0x00013300 ≠ 0x00000100 ∧ w &&& 0x00013300 ≠ 0x00010100 ∧ w &&& 0x00003300 ≠ 0x00001000 ∧
      w &&& 0x00003300 ≠ 0x00002000 ∧ w &&& 0x00003300 ≠ 0x00000200) ∧
    (decode (.busIn w) = .ok (.ack (w.extractLsb' 24 8) (w.extractLsb' 17 7) (w.getLsbD 16)) ↔
      w &&& 0x00003B00 = 0x00000800) ∧
    (decode (.busIn w) = .ok (.ackRead (w.extractLsb' 24 8) (w.extractLsb' 17 7) (w.getLsbD 16)) ↔
      w &&& 0x00003B00 = 0x00002800)

/-- State.Inv holds at State.reset. The launch configuration is the model's choice (log 1). (R32, R34) -/
def Obligations.InvariantAtReset : Prop :=
  State.reset.Inv

/-- For every configuration R4 allows, every list of devices and every initial cycle count, the constructed state
satisfies State.Inv. (R4, R32, R311) -/
def Obligations.InvariantAfterLaunch : Prop :=
  ∀ (c : Config) (specs : List DeviceSpec) (now : Nat), configOk c → (State.launched c specs now).Inv

/-- From every state that satisfies State.Inv, a step that answers a next state answers one that satisfies it:
selections stay inside their files and present in data phases; the FIFO count and slots agree; INT_n is low exactly
while an interrupt is unacknowledged; the EEPROM buffer keeps its canonical form and its bounds, its pointer at most
65536; cursor, magnification, grid and text stay in bounds; the parser is consistent; pending releases, ticks and the
busy timer name live timed actions; at most 100 transactions. (R34, R119, R168, R170, R192, R246, R271) -/
def Obligations.InvariantKeptByEveryStep : Prop :=
  ∀ s t : State, s.Inv → step s = .next t → t.Inv

/-- After construction with any configuration c, devices specs and cycle count now, every row of the table of R32
holds: run level, listener and timer state, and for each device the values of its kind, RTC_INIT and EE_INIT being
parameters. pending is one periodic RtcTick per RTC. Most of the table's values are the spec's own decision D45. (R32)
-/
def Obligations.ConstructionValues : Prop :=
  ∀ (c : Config) (specs : List DeviceSpec) (now : Nat), ∀ s, s = State.launched c specs now →
    s.aborted = none ∧ s.trace = [] ∧ s.dbglog = [] ∧ s.openTx = none ∧ s.finished = [] ∧ s.onComplete = none ∧
    s.now = now ∧ s.devices.length = specs.length ∧
    (∀ a : PendingAction, a ∈ s.pending ↔ ∃ k dev d, s.devices[k]? = some dev ∧ dev.st = .rtc d ∧
      a = { id := d.timer, owner := k, fireAt := now + c.rtcTickPeriod, payload := .rtcTick,
            periodic := some c.rtcTickPeriod }) ∧
    ∀ k, ∀ h : k < specs.length, ∃ st, s.devices[k]? = some { addrs := (specs[k]).addrs, live := true, st := st } ∧
      match (specs[k]).kind with
      | .rtc => ∃ d, st = .rtc d ∧ d.core.phase = .idle ∧ d.core.sel = none ∧
          d.core.regs.length = c.rtcLast + 1 ∧ (∀ i ≤ c.rtcLast, regRead d.core.regs i = c.rtcInit.getD i 0) ∧
          d.osc = 0 ∧ d.sqwLevel = false ∧ d.sqwPin = false
      | .keypad => ∃ d, st = .keypad d ∧ d.core.phase = .idle ∧ d.core.sel = none ∧
          d.core.regs = List.replicate 47 0x00 ∧ d.unacked = 0 ∧ d.overflow = false ∧ d.pendingRelease = [] ∧
          d.intN = true
      | .led => ∃ d, st = .led d ∧ d.core.phase = .idle ∧ d.core.sel = none ∧ d.autoinc = false ∧
          d.core.regs = List.replicate 28 0x00
      | .eeprom => ∃ d, st = .eeprom d ∧ d.phase = .idle ∧ d.addrHi = none ∧ d.ptr = none ∧ d.buf = c.eeInit
      | .display => ∃ d, st = .display d ∧ d.phase = .idle ∧ d.pstate = .idle ∧ parserEmpty d ∧
          d.cx = 0 ∧ d.cy = 0 ∧ d.magX = 1 ∧ d.magY = 1 ∧ d.busy = false ∧ d.busyTimer = none ∧
          d.px = List.replicate c.dispH (List.replicate c.dispW false) ∧
          d.text = List.replicate (c.dispH / c.glyphH) (List.replicate (c.dispW / c.glyphW) 0x20)

/-- At every state whose run is aborted, step and exec of every instruction stop with the fault runAborted carrying
the abort record: the abort is the end of the run. (R283, R284) -/
def Obligations.AbortedRunHasNoStep : Prop :=
  ∀ (s : State) (r : FaultRecord), s.aborted = some r →
    step s = .fault (.runAborted r) ∧ ∀ i : Instr, exec i s = .fault (.runAborted r)

/-- Whatever the instruction, if it takes an unaborted state to an aborted one, the device recorded is a live one and
is exactly as it was before: the raise precedes every write of its rule. If at most one live device accepts the
address of the message, the trace, the pending actions and the log are unchanged too. (R281, R282, R283, R285) -/
def Obligations.FatalMessageLeavesItsDevice : Prop :=
  ∀ (i : Instr) (s t : State) (r : FaultRecord), s.aborted = none → exec i s = .next t → t.aborted = some r →
    (∃ dev, liveAt s r.device dev) ∧ t.devices[r.device]? = s.devices[r.device]? ∧
    ((∀ a, hostAddress? i = some a → matchCount s a ≤ 1) →
      t.trace = s.trace ∧ t.pending = s.pending ∧ t.dbglog = s.dbglog)

/-- If a step answers a next state, the old trace, log, calls and answers are prefixes of the new ones, the cycle
counter and the next fresh identifier have not fallen, the configuration is the same, and every device stands at its
position with the match predicate and the kind it had; one that was not live has not come back. That the predicates
are data of the device is the model's form (log 24). (R28, R30, R33, R271) -/
def Obligations.HistoryOnlyGrows : Prop :=
  ∀ s t : State, step s = .next t →
    s.trace <+: t.trace ∧ s.dbglog <+: t.dbglog ∧ s.calls <+: t.calls ∧ s.answers <+: t.answers ∧
    s.now ≤ t.now ∧ s.nextId ≤ t.nextId ∧ t.cfg = s.cfg ∧
    ∀ (k : Nat) (dev : Device), s.devices[k]? = some dev → ∃ dev' : Device, t.devices[k]? = some dev' ∧ dev'.addrs = dev.addrs ∧
      dev'.st.kind = dev.st.kind ∧ (dev.live = false → dev'.live = false)

/-- At every unaborted state, whatever the order of delivery, START_W answers the next state in which each live device
that accepts the address has gone to its address phase (two-phase devices: sel kept; EEPROM: pointer kept, high byte
cleared; display: parser kept), each other live device has its protocol reset, one ACK per accepting device is on the
trace, the listener has opened or continued its transaction, and nothing else has changed. (R91, R92, R93, R100, R111,
R161, R221, R261) -/
def Obligations.StartWriteReachesEveryDevice : Prop :=
  ∀ (s : State) (data : Byte) (a : BusAddress), s.aborted = none →
    exec (.startW data a) s = .next
      { s with
        ab := addressByte a false
        devices := s.devices.map (Device.heard a DevState.startedWrite DevState.protocolReset)
        trace := s.trace ++ List.replicate (matchCount s a) (ackEvent (addressByte a false))
        openTx := some (match s.openTx with
          | none => { address := a, direction := some .write, repeatedStart := false, writeBytes := [],
                      readBytes := [] }
          | some t => { t with repeatedStart := true, direction := some .write }) }

/-- At every unaborted state in which every live device that accepts the address has a register or an EEPROM address
selected, START_R answers the next state in which each of them is in DataRead with its selection kept, each other live
device has its protocol reset, one ACK per accepting device is on the trace, the listener has opened or continued its
transaction as a read, and nothing else has changed. (R91, R92, R93, R100, R112, R164, R261) -/
def Obligations.StartReadReachesEveryDevice : Prop :=
  ∀ (s : State) (data : Byte) (a : BusAddress), s.aborted = none → allMatched s a DevState.selected →
    exec (.startR data a) s = .next
      { s with
        ab := addressByte a true
        devices := s.devices.map (Device.heard a DevState.startedRead DevState.protocolReset)
        trace := s.trace ++ List.replicate (matchCount s a) (ackEvent (addressByte a true))
        openTx := some (match s.openTx with
          | none => { address := a, direction := some .read, repeatedStart := false, writeBytes := [],
                      readBytes := [] }
          | some t => { t with repeatedStart := true, direction := some .read }) }

/-- If some live device that accepts the address has nothing selected (the display never has), START_R answers an
aborted next state: ProtocolDesync, recorded for such a device, which is unchanged, with the message as information.
(R112, R164, R221, R316) -/
def Obligations.StartReadWithoutSelectionIsFatal : Prop :=
  ∀ (s : State) (data : Byte) (a : BusAddress), s.aborted = none →
    (∃ dev ∈ s.devices, dev.live = true ∧ dev.accepts a = true ∧ dev.st.selected = false) →
    ∃ t k dev, exec (.startR data a) s = .next t ∧ liveAt s k dev ∧ dev.accepts a = true ∧
      dev.st.selected = false ∧ t.devices[k]? = some dev ∧
      t.aborted = some
        { cause := .protocolDesync, device := k,
          info := .message
            { address := a, rnw := true, data := data,
              conditions := { start := true, stop := false, write := false, read := false } } }

/-- At every unaborted state, whatever the phase of any device, STOP answers the next state in which each live device
that accepts the address has its protocol reset and no other device has changed, the open transaction is at the head
of the finished list, cut to 100, the callback if registered has been called with it, the trace is unchanged, and
nothing else has changed. (R92, R97, R100, R117, R167, R221, R264, R313) -/
def Obligations.StopReturnsAddressedDevicesToIdle : Prop :=
  ∀ (s : State) (data : Byte) (a : BusAddress) (rnw : Bool), s.aborted = none →
    exec (.stop data a rnw) s = .next
      { s with
        ab := addressByte a rnw
        devices := s.devices.map (Device.heard a DevState.protocolReset id)
        openTx := none
        finished := (match s.openTx with
          | none => s.finished
          | some t => (t :: s.finished).take 100)
        calls := (match s.openTx, s.onComplete with
          | some t, some c => s.calls ++ [(c, t)]
          | _, _ => s.calls) }

/-- At every unaborted state in which no live device accepts the address, WRITE answers the next state that differs
only in the byte the listener appends to an open transaction and in the address byte being handled, and READ the one
that differs only in the latter. No reply is raised. (R54, R92, R103, R262) -/
def Obligations.UnaddressedDevicesIgnoreData : Prop :=
  ∀ (s : State) (v : Byte) (a : BusAddress) (rnw : Bool), s.aborted = none → noMatch s a →
    exec (.write v a rnw) s = .next { s with ab := addressByte a rnw, openTx := heardByte s.openTx v } ∧
    exec (.read v a rnw) s = .next { s with ab := addressByte a rnw }

/-- For an addressed RTC or keypad in AddressPhase: a byte up to the last index becomes sel, the phase becomes
DataWrite, an ACK is raised, no register changes; a byte beyond it (keypad: beyond 0x2E) aborts the run with
OutOfRange and the byte, and writes nothing. (R110, R114, R130, R175) -/
def Obligations.RegisterSelectedByAddressByte : Prop :=
  (∀ (s : State) (k : Nat) (dev : Device) (d : Rtc) (b : Byte) (a : BusAddress) (rnw : Bool),
    addressed s k dev a → dev.st = .rtc d → d.core.phase = .addressPhase →
    (b.toNat ≤ s.cfg.rtcLast → exec (.write b a rnw) s = .next (s.wrote k dev
      (.rtc { d with core := { d.core with sel := some b.toNat, phase := .dataWrite } }) b (addressByte a rnw))) ∧
    (s.cfg.rtcLast < b.toNat → ∃ t, exec (.write b a rnw) s = .next t ∧
      abortedAt s t k .outOfRange (.index b.toNat) (addressByte a rnw) (heardByte s.openTx b))) ∧
  (∀ (s : State) (k : Nat) (dev : Device) (d : Keypad) (b : Byte) (a : BusAddress) (rnw : Bool),
    addressed s k dev a → dev.st = .keypad d → d.core.phase = .addressPhase →
    (b.toNat ≤ 0x2E → exec (.write b a rnw) s = .next (s.wrote k dev
      (.keypad { d with core := { d.core with sel := some b.toNat, phase := .dataWrite } }) b
      (addressByte a rnw))) ∧
    (0x2E < b.toNat → ∃ t, exec (.write b a rnw) s = .next t ∧
      abortedAt s t k .outOfRange (.index b.toNat) (addressByte a rnw) (heardByte s.openTx b)))

/-- For an addressed LED driver in AddressPhase and byte b: if bits 6:5 are not 0 the run aborts with Unimplemented;
else if bits 4:0 are above 0x1B it aborts with OutOfRange; else sel is bits 4:0, autoinc is bit 7, the phase is
DataWrite, an ACK is raised. An abort writes nothing. (R70, R114, R206, R207) -/
def Obligations.LedRegisterSelectedByAddressByte : Prop :=
  ∀ (s : State) (k : Nat) (dev : Device) (d : Led) (b : Byte) (a : BusAddress) (rnw : Bool),
    addressed s k dev a → dev.st = .led d → d.core.phase = .addressPhase →
    (b.extractLsb' 5 2 = 0 → b.toNat % 32 ≤ 0x1B → exec (.write b a rnw) s = .next (s.wrote k dev
      (.led { d with core := { d.core with sel := some (b.toNat % 32), phase := .dataWrite },
                     autoinc := b.getLsbD 7 }) b (addressByte a rnw))) ∧
    (b.extractLsb' 5 2 = 0 → 0x1B < b.toNat % 32 → ∃ t, exec (.write b a rnw) s = .next t ∧
      abortedAt s t k .outOfRange (.index b.toNat) (addressByte a rnw) (heardByte s.openTx b)) ∧
    (b.extractLsb' 5 2 ≠ 0 → ∃ t, exec (.write b a rnw) s = .next t ∧
      abortedAt s t k .unimplemented (.feature b.toNat) (addressByte a rnw) (heardByte s.openTx b))

/-- For an addressed RTC in DataWrite with sel = i: register i becomes the byte, sel becomes (i + 1) mod (RTC_LAST +
1), an ACK is raised, nothing else of the device changes, osc and the square wave included. For an addressed LED
driver the same, where sel steps modulo 28 if autoinc is set and stays otherwise. (R115, R118, R130, R133, R208, R210)
-/
def Obligations.PlainRegisterWrites : Prop :=
  (∀ (s : State) (k : Nat) (dev : Device) (d : Rtc) (v : Byte) (a : BusAddress) (rnw : Bool) (i : Nat),
    addressed s k dev a → dev.st = .rtc d → d.core.phase = .dataWrite → d.core.sel = some i →
    exec (.write v a rnw) s = .next (s.wrote k dev
      (.rtc { d with core := { d.core with regs := d.core.regs.set i v,
                                           sel := some ((i + 1) % (s.cfg.rtcLast + 1)) } }) v (addressByte a rnw))) ∧
  (∀ (s : State) (k : Nat) (dev : Device) (d : Led) (v : Byte) (a : BusAddress) (rnw : Bool) (i : Nat),
    addressed s k dev a → dev.st = .led d → d.core.phase = .dataWrite → d.core.sel = some i →
    exec (.write v a rnw) s = .next (s.wrote k dev
      (.led { d with core := { d.core with regs := d.core.regs.set i v,
                                           sel := some (if d.autoinc then (i + 1) % 28 else i) } }) v
      (addressByte a rnw)))

/-- For an addressed keypad in DataWrite with sel = i, i not KP_INT_STAT: the count register and the ten FIFO slots (3
to 13) keep their values, every other register becomes the byte; sel becomes (i + 1) mod 47, an ACK is raised, and
nothing else of the keypad changes: neither the line nor the mask nor the status. With KP_INT_STAT selected: the
status register and unacked lose the bits of v; INT_n goes to 1, with one pin event before the ACK, exactly if it was
0 and unacked has become 0; sel steps to the count register; the FIFO, the count and everything else are unchanged.
(R115, R118, R175, R187, R188, R189, R190, R191, R262) -/
def Obligations.KeypadRegisterWrites : Prop :=
  (∀ (s : State) (k : Nat) (dev : Device) (d : Keypad) (v : Byte) (a : BusAddress) (rnw : Bool) (i : Nat),
    addressed s k dev a → dev.st = .keypad d → d.core.phase = .dataWrite → d.core.sel = some i → i ≠ 2 →
    exec (.write v a rnw) s = .next (s.wrote k dev
      (.keypad { d with core := { d.core with
        regs := if 3 ≤ i ∧ i ≤ 13 then d.core.regs else d.core.regs.set i v
        sel := some ((i + 1) % 47) } }) v (addressByte a rnw))) ∧
  (∀ (s : State) (k : Nat) (dev : Device) (d : Keypad) (v : Byte) (a : BusAddress) (rnw : Bool),
    addressed s k dev a → dev.st = .keypad d → d.core.phase = .dataWrite → d.core.sel = some 2 →
    exec (.write v a rnw) s = .next
      { s with
        devices := s.devices.set k { dev with st := .keypad { d with
          core := { d.core with regs := d.core.regs.set 2 (regRead d.core.regs 2 &&& ~~~v), sel := some 3 }
          unacked := d.unacked &&& ~~~v
          intN := if d.unacked &&& ~~~v = 0 ∧ d.intN = false then true else d.intN } }
        ab := addressByte a rnw
        trace := s.trace ++ (if d.unacked &&& ~~~v = 0 ∧ d.intN = false then [.pin k .intN true] else []) ++
          [ackEvent (addressByte a rnw)]
        openTx := heardByte s.openTx v })

/-- For any keypad and byte v, the write of v to KP_INT_STAT: the status register and unacked lose the bits of v;
INT_n goes to 1, with one pin signal, exactly if it was 0 and unacked has become 0; every other register, the FIFO and
the count among them, and everything else of the keypad are unchanged, and nothing else is asked for. What the WRITE
that carries it does at the bus is KeypadRegisterWrites. (R188) -/
def Obligations.KeypadInterruptAcknowledge : Prop :=
  ∀ (d : Keypad) (v : Byte), d.writeReg kpIntStat v =
    ({ d with
       core := { d.core with regs := d.core.regs.set kpIntStat (regRead d.core.regs kpIntStat &&& ~~~v) }
       unacked := d.unacked &&& ~~~v
       intN := if d.unacked &&& ~~~v = 0 ∧ d.intN = false then true else d.intN },
     if d.unacked &&& ~~~v = 0 ∧ d.intN = false then [.pin .intN true] else [])

/-- For an addressed RTC in DataRead with sel = i, READ raises ACK_READ with register i as it stands, sel becomes (i +
1) mod (RTC_LAST + 1), and no register changes. For an addressed LED driver the same, where sel steps modulo 28 if
autoinc is set and stays otherwise. (R116, R118, R131, R209, R210) -/
def Obligations.PlainRegisterReads : Prop :=
  (∀ (s : State) (k : Nat) (dev : Device) (d : Rtc) (v : Byte) (a : BusAddress) (rnw : Bool) (i : Nat),
    addressed s k dev a → dev.st = .rtc d → d.core.phase = .dataRead → d.core.sel = some i →
    exec (.read v a rnw) s = .next (s.answered k dev
      (.rtc { d with core := { d.core with sel := some ((i + 1) % (s.cfg.rtcLast + 1)) } })
      (regRead d.core.regs i) (addressByte a rnw))) ∧
  (∀ (s : State) (k : Nat) (dev : Device) (d : Led) (v : Byte) (a : BusAddress) (rnw : Bool) (i : Nat),
    addressed s k dev a → dev.st = .led d → d.core.phase = .dataRead → d.core.sel = some i →
    exec (.read v a rnw) s = .next (s.answered k dev
      (.led { d with core := { d.core with sel := some (if d.autoinc then (i + 1) % 28 else i) } })
      (regRead d.core.regs i) (addressByte a rnw)))

/-- For an addressed keypad in DataRead with sel = i: READ raises ACK_READ with register i as it stood, sel becomes (i
+ 1) mod 47, and no register changes unless i is KEY_EVENT_A and the count n is not 0; then slots 0 to n-2 take the
byte of the next slot, slot n-1 becomes 0x00, the count n-1, every other register is kept. The interrupt line, status
and mask are never touched. (R44, R116, R118, R175, R176, R186) -/
def Obligations.KeypadReadsAndPop : Prop :=
  ∀ (s : State) (k : Nat) (dev : Device) (d : Keypad) (v : Byte) (a : BusAddress) (rnw : Bool) (i : Nat),
    addressed s k dev a → dev.st = .keypad d → d.core.phase = .dataRead → d.core.sel = some i →
    keypadOk d →
    ∃ regs, exec (.read v a rnw) s = .next (s.answered k dev
        (.keypad { d with core := { d.core with regs := regs, sel := some ((i + 1) % 47) } })
        (regRead d.core.regs i) (addressByte a rnw)) ∧
      (i ≠ 4 ∨ kpCount d.core.regs = 0 → regs = d.core.regs) ∧
      (i = 4 → 0 < kpCount d.core.regs →
        regs.length = d.core.regs.length ∧ kpCount regs = kpCount d.core.regs - 1 ∧
        (∀ j, j + 1 < kpCount d.core.regs → kpSlot regs j = kpSlot d.core.regs (j + 1)) ∧
        kpSlot regs (kpCount d.core.regs - 1) = 0x00 ∧
        (∀ j, kpCount d.core.regs ≤ j → kpSlot regs j = kpSlot d.core.regs j) ∧
        (∀ j < 3, regRead regs j = regRead d.core.regs j) ∧
        regRead regs 3 &&& 0xF0 = regRead d.core.regs 3 &&& 0xF0)

/-- For an addressed EEPROM in ADDRESSING_HIGH, WRITE keeps the byte as the high byte and goes to ADDRESSING_LOW; in
ADDRESSING_LOW with high byte hi, WRITE of lo makes the pointer 256 * hi + lo, with no range check, drops the high
byte and goes to DataWrite. Each is acknowledged; the buffer is unchanged. (R67, R162, R163) -/
def Obligations.EepromAddressBytes : Prop :=
  (∀ (s : State) (k : Nat) (dev : Device) (d : Eeprom) (b : Byte) (a : BusAddress) (rnw : Bool),
    addressed s k dev a → dev.st = .eeprom d → d.phase = .addressingHigh →
    exec (.write b a rnw) s = .next (s.wrote k dev
      (.eeprom { d with addrHi := some b, phase := .addressingLow }) b (addressByte a rnw))) ∧
  (∀ (s : State) (k : Nat) (dev : Device) (d : Eeprom) (hi b : Byte) (a : BusAddress) (rnw : Bool),
    addressed s k dev a → dev.st = .eeprom d → d.phase = .addressingLow → d.addrHi = some hi →
    exec (.write b a rnw) s = .next (s.wrote k dev
      (.eeprom { d with ptr := some (256 * hi.toNat + b.toNat), addrHi := none, phase := .dataWrite }) b
      (addressByte a rnw)))

/-- For an addressed EEPROM with pointer p. WRITE in DataWrite, p below EE_SIZE: the byte read at p afterwards is the
byte written, every other address reads as before, the pointer is p + 1, an ACK is raised. READ in DataRead, p below
EE_SIZE: ACK_READ carries the byte at p, the pointer is p + 1, the buffer is unchanged. With p at or above EE_SIZE
either aborts the run with OutOfRange and p, and nothing is written. (R165, R166) -/
def Obligations.EepromTransfers : Prop :=
  ∀ (s : State) (k : Nat) (dev : Device) (d : Eeprom) (v : Byte) (a : BusAddress) (rnw : Bool) (p : Nat),
    addressed s k dev a → dev.st = .eeprom d → d.ptr = some p →
    (d.phase = .dataWrite → p < s.cfg.eeSize →
      ∃ buf, exec (.write v a rnw) s = .next (s.wrote k dev
          (.eeprom { d with buf := buf, ptr := some (p + 1) }) v (addressByte a rnw)) ∧
        memRead buf p = v ∧ ∀ j, j ≠ p → memRead buf j = memRead d.buf j) ∧
    (d.phase = .dataWrite → s.cfg.eeSize ≤ p → ∃ t, exec (.write v a rnw) s = .next t ∧
      abortedAt s t k .outOfRange (.index p) (addressByte a rnw) (heardByte s.openTx v)) ∧
    (d.phase = .dataRead → p < s.cfg.eeSize → exec (.read v a rnw) s = .next (s.answered k dev
      (.eeprom { d with ptr := some (p + 1) }) (memRead d.buf p) (addressByte a rnw))) ∧
    (d.phase = .dataRead → s.cfg.eeSize ≤ p → ∃ t, exec (.read v a rnw) s = .next t ∧
      abortedAt s t k .outOfRange (.index p) (addressByte a rnw) s.openTx)

/-- For an addressed device: WRITE in Idle or DataRead (display: in Idle), and READ in any phase but DataRead
(display: in every phase), abort the run with ProtocolDesync and the message; no device, no trace and no log entry is
written. (R113, R116, R119, R168, R221, R281) -/
def Obligations.MessagesAPhaseCannotTake : Prop :=
  ∀ (s : State) (k : Nat) (dev : Device) (v : Byte) (a : BusAddress) (rnw : Bool), addressed s k dev a →
    (dev.st.refusesWrite = true → ∃ t, exec (.write v a rnw) s = .next t ∧
      abortedAt s t k .protocolDesync
        (.message ⟨a, rnw, v, { start := false, stop := false, write := true, read := false }⟩)
        (addressByte a rnw) (heardByte s.openTx v)) ∧
    (dev.st.refusesRead = true → ∃ t, exec (.read v a rnw) s = .next t ∧
      abortedAt s t k .protocolDesync
        (.message ⟨a, rnw, v, { start := false, stop := false, write := false, read := true }⟩)
        (addressByte a rnw) s.openTx)

/-- A BUS_OUT word with none or several framing conditions. heard is what the listener makes of it: START first, then
STOP, then WRITE, else nothing. If some live device accepts its address, the step answers an aborted state
(ProtocolDesync with the message, at such a device, the trace unchanged), and the listener has heard it or not, as it
was called before or after that device (log 35). If none does, the next state is written out: the listener has heard
it, every live device has its protocol reset exactly if the word carries START, and nothing else has changed. (R64,
R92, R96, R261, R262, R264, R265) -/
def Obligations.MalformedMessages : Prop :=
  ∀ (s : State) (w : BusWord) (order : List Nat) (focus : Nat) (rest : List HostEvent), s.aborted = none →
    s.inbox = .operation order focus (.busOut w) :: rest → decode (.busOut w) = .error .malformedMessage →
    ∀ dir : Direction, dir = (if w.getLsbD 16 then .read else .write) →
    ∀ heard : State, heard =
      (if w.getLsbD 8 then
        { s with
          openTx := some (match s.openTx with
            | none => { address := w.extractLsb' 17 7, direction := some dir, repeatedStart := false,
                        writeBytes := [], readBytes := [] }
            | some x => { x with repeatedStart := true, direction := some dir }) }
      else if w.getLsbD 9 then
        { s with
          openTx := none
          finished := (match s.openTx with
            | none => s.finished
            | some x => (x :: s.finished).take 100)
          calls := (match s.openTx, s.onComplete with
            | some x, some c => s.calls ++ [(c, x)]
            | _, _ => s.calls) }
      else if w.getLsbD 12 then { s with openTx := heardByte s.openTx (w.extractLsb' 24 8) }
      else s) →
    ((∃ dev ∈ s.devices, dev.live = true ∧ dev.accepts (w.extractLsb' 17 7) = true) →
      ∃ t k dev, step s = .next t ∧ liveAt s k dev ∧ dev.accepts (w.extractLsb' 17 7) = true ∧
        t.aborted = some { cause := .protocolDesync, device := k, info := .message (decodeMessage w) } ∧
        t.devices[k]? = some dev ∧ t.trace = s.trace ∧ t.pending = s.pending ∧ t.dbglog = s.dbglog ∧
        ((t.openTx = s.openTx ∧ t.finished = s.finished ∧ t.calls = s.calls) ∨
          (t.openTx = heard.openTx ∧ t.finished = heard.finished ∧ t.calls = heard.calls))) ∧
    (noMatch s (w.extractLsb' 17 7) → step s = .next
      { heard with
        inbox := rest, order := order, focus := focus
        ab := addressByte (w.extractLsb' 17 7) (w.getLsbD 16)
        devices := if w.getLsbD 8 then s.devices.map (Device.heard 0 DevState.protocolReset DevState.protocolReset)
          else s.devices })

/-- At every unaborted state, ACK for address a and direction rnw appends to the trace the BUS_IN word whose bytes are
0x00, the address byte, 0x08, 0x00, and changes nothing else, the listener included. That the word has data 0x00
whatever the data bits of the row, and that a reply runs alone as an instruction with an address byte of its own, is
the model's choice (log 17). (R65, R98) -/
def Obligations.AckWord : Prop :=
  ∀ (s : State) (data : Byte) (a : BusAddress) (rnw : Bool), s.aborted = none →
    exec (.ack data a rnw) s = .next
      { s with trace := s.trace ++ [.busIn ((0x00 : Byte) ++ (a ++ BitVec.ofBool rnw) ++ (0x08 : Byte) ++ (0x00 : Byte))] }

/-- At every unaborted state, ACK_READ of byte b appends to the trace the BUS_IN word whose bytes are b, the address
byte, 0x28, 0x00; the listener appends b to the bytes read of an open transaction; nothing else changes. That a reply
runs alone as an instruction is the model's choice (log 17). (R99, R263) -/
def Obligations.AckReadWord : Prop :=
  ∀ (s : State) (b : Byte) (a : BusAddress) (rnw : Bool), s.aborted = none →
    exec (.ackRead b a rnw) s = .next
      { s with
        trace := s.trace ++ [.busIn (b ++ (a ++ BitVec.ofBool rnw) ++ (0x28 : Byte) ++ (0x00 : Byte))]
        openTx := s.openTx.map (fun t => { t with readBytes := t.readBytes ++ [b] }) }

/-- On the display in focus, with gw and gh the magnified glyph size: HT is Advance of R230; LF adds gh to cy, or
makes it 0 when no further line fits, cx kept; HOM makes both 0; CR makes cx 0, cy kept. Nothing else of the display,
of any other device or of the run changes. What these bytes do is the spec's own decision D36. (R233, R234, R235,
R237) -/
def Obligations.CursorControlBytes : Prop :=
  ∀ (s : State) (dev : Device) (d : Display) (gw gh : Nat), focused s dev → dev.st = .display d →
    gw = s.cfg.glyphW * d.magX → gh = s.cfg.glyphH * d.magY →
    exec .ht s = .next (s.withDevice s.focus dev (.display
      (if s.cfg.dispW < d.cx + gw + gw then
        { d with cx := 0, cy := if s.cfg.dispH < d.cy + gh + gh then 0 else d.cy + gh }
       else { d with cx := d.cx + gw }))) ∧
    exec .lf s = .next (s.withDevice s.focus dev (.display
      { d with cy := if s.cfg.dispH < d.cy + gh + gh then 0 else d.cy + gh })) ∧
    exec .hom s = .next (s.withDevice s.focus dev (.display { d with cx := 0, cy := 0 })) ∧
    exec .cr s = .next (s.withDevice s.focus dev (.display { d with cx := 0 }))

/-- On the display in focus, with gw and gh the magnified glyph size: if cx >= gw the cursor goes gw to the left; else
if cy >= gh it goes up gh, to column ((DISP_W / gw) - 1) * gw, where a glyph fits on the display; else nothing
changes. Nothing is erased and nothing else changes. Where gw > DISP_W >= 1, cx < gw and cy >= gh, BS completes too:
cy falls by gh, cx becomes some column below DISP_W and one free value is drawn; R232 gives no column there, and that
it is a free value is the model's choice (log 14). What BS does is the spec's own decision D36. (R25, R232) -/
def Obligations.Backspace : Prop :=
  ∀ (s : State) (dev : Device) (d : Display) (gw gh : Nat), focused s dev → dev.st = .display d →
    gw = s.cfg.glyphW * d.magX → gh = s.cfg.glyphH * d.magY →
    (gw ≤ d.cx → exec .bs s = .next (s.withDevice s.focus dev (.display { d with cx := d.cx - gw }))) ∧
    (d.cx < gw → gh ≤ d.cy → gw ≤ s.cfg.dispW → exec .bs s = .next (s.withDevice s.focus dev (.display
      { d with cy := d.cy - gh, cx := (s.cfg.dispW / gw - 1) * gw }))) ∧
    (d.cx < gw → d.cy < gh → exec .bs s = .next s) ∧
    (d.cx < gw → gh ≤ d.cy → s.cfg.dispW < gw → 1 ≤ s.cfg.dispW →
      ∃ cx, cx < s.cfg.dispW ∧ exec .bs s = .next
        { s.withDevice s.focus dev (.display { d with cy := d.cy - gh, cx := cx }) with draws := s.draws + 1 })

/-- From every state, whatever its next move is, the step with EE_DELAY set to any value x is the step without, its
answer's EE_DELAY set to x: the same next state in every other part, replies and order included, or the same stop.
(R169) -/
def Obligations.EepromDelayHasNoEffect : Prop :=
  ∀ (s : State) (x : Nat), step { s with cfg := { s.cfg with eeDelay := x } } =
    match step s with
    | .next t => .next { t with cfg := { t.cfg with eeDelay := x } }
    | .fault r => .fault r
    | .refused r => .refused r

/-- On the display in focus: after CLR every pixel is off, every text cell 0x20, the cursor at (0,0), the
magnification kept; after ESC_INIT the same with magnification 1 by 1. The busy line, the bus phase, the parser and
everything else are unchanged. That ESC_INIT also clears and resets the magnification is the spec's own decision D37.
(R236, R238) -/
def Obligations.ClearAndInitialise : Prop :=
  ∀ (s : State) (dev : Device) (d : Display), focused s dev → dev.st = .display d →
    exec .clr s = .next (s.withDevice s.focus dev (.display
      { d with px := List.replicate s.cfg.dispH (List.replicate s.cfg.dispW false)
               text := List.replicate (s.cfg.dispH / s.cfg.glyphH) (List.replicate (s.cfg.dispW / s.cfg.glyphW) 0x20)
               cx := 0, cy := 0 })) ∧
    exec .escInit s = .next (s.withDevice s.focus dev (.display
      { d with px := List.replicate s.cfg.dispH (List.replicate s.cfg.dispW false)
               text := List.replicate (s.cfg.dispH / s.cfg.glyphH) (List.replicate (s.cfg.dispW / s.cfg.glyphW) 0x20)
               cx := 0, cy := 0, magX := 1, magY := 1 }))

/-- For each of the three PRINT rows and its byte c, on a display in focus whose grid has its size: every pixel of the
grid inside the magnified cell at the cursor is FONT(c) at its unmagnified place, every other pixel is kept; the text
cell holding the cursor, if there is one, becomes c; the cursor advances by R230; nothing else changes. FONT is an
opaque parameter (log 15). (R79, R228, R229, R230) -/
def Obligations.PrintDrawsItsGlyph : Prop :=
  ∀ (s : State) (dev : Device) (d : Display) (i : Instr) (c : Byte) (gw gh : Nat), focused s dev →
    dev.st = .display d → displayOk s.cfg d → printByte? i = some c →
    gw = s.cfg.glyphW * d.magX → gh = s.cfg.glyphH * d.magY →
    ∃ px, exec i s = .next (s.withDevice s.focus dev (.display
        { d with
          px := px
          text := if d.cy / s.cfg.glyphH < s.cfg.dispH / s.cfg.glyphH ∧ d.cx / s.cfg.glyphW < s.cfg.dispW / s.cfg.glyphW
            then d.text.set (d.cy / s.cfg.glyphH) ((d.text.getD (d.cy / s.cfg.glyphH) []).set (d.cx / s.cfg.glyphW) c)
            else d.text
          cx := if s.cfg.dispW < d.cx + gw + gw then 0 else d.cx + gw
          cy := if s.cfg.dispW < d.cx + gw + gw then (if s.cfg.dispH < d.cy + gh + gh then 0 else d.cy + gh)
            else d.cy })) ∧
      px.length = s.cfg.dispH ∧ (∀ row ∈ px, row.length = s.cfg.dispW) ∧
      ∀ Y < s.cfg.dispH, ∀ X < s.cfg.dispW, pixelAt px Y X =
        if d.cx ≤ X ∧ X < d.cx + gw ∧ d.cy ≤ Y ∧ Y < d.cy + gh then
          Config.font c ((Y - d.cy) / d.magY) ((X - d.cx) / d.magX)
        else pixelAt d.px Y X

/-- On the display in focus. US_CURSOR, with x and y its two arguments low byte first: if x < DISP_W and 8 * y <
DISP_H the cursor is (x, 8 * y) and nothing else changes; otherwise one log record with the six bytes of the command
is appended and nothing else changes. US_MAG: if 1 <= x <= 4 and 1 <= y <= 2 the magnification is x by y and nothing
else changes, the cursor included; otherwise one log record with its six bytes is appended and nothing else changes.
These commands are the spec's own decision D37. (R239, R241) -/
def Obligations.CursorAndMagnificationSet : Prop :=
  ∀ (s : State) (dev : Device) (d : Display), focused s dev → dev.st = .display d →
    (∀ (xL xH yL yH : Byte) (x y : Nat), x = xL.toNat + 256 * xH.toNat → y = yL.toNat + 256 * yH.toNat →
      (x < s.cfg.dispW ∧ y * 8 < s.cfg.dispH → exec (.usCursor xL xH yL yH) s = .next
        (s.withDevice s.focus dev (.display { d with cx := x, cy := y * 8 }))) ∧
      (¬ (x < s.cfg.dispW ∧ y * 8 < s.cfg.dispH) → exec (.usCursor xL xH yL yH) s = .next
        { s with dbglog := s.dbglog ++ [{ device := s.focus, bytes := [0x1F, 0x24, xL, xH, yL, yH] }] })) ∧
    (∀ (x y : Byte),
      (1 ≤ x.toNat ∧ x.toNat ≤ 4 ∧ 1 ≤ y.toNat ∧ y.toNat ≤ 2 → exec (.usMag x y) s = .next
        (s.withDevice s.focus dev (.display { d with magX := x.toNat, magY := y.toNat }))) ∧
      (¬ (1 ≤ x.toNat ∧ x.toNat ≤ 4 ∧ 1 ≤ y.toNat ∧ y.toNat ≤ 2) → exec (.usMag x y) s = .next
        { s with dbglog := s.dbglog ++ [{ device := s.focus, bytes := [0x1F, 0x28, 0x67, 0x40, x, y] }] }))

/-- On a display in focus whose grid has its size, for width w and height h in groups of 8 rows and a payload of w * h
bytes: every pixel of the grid in the w by 8h rectangle at the cursor is its bit of the payload, every other pixel is
kept; cursor, text and everything else are unchanged. g is ignored. (R240, R41) -/
def Obligations.ImageDrawn : Prop :=
  ∀ (s : State) (dev : Device) (d : Display) (xL xH yL yH g : Byte) (payload : List Byte) (w h : Nat),
    focused s dev → dev.st = .display d → displayOk s.cfg d → WellFormed (.usImage xL xH yL yH g payload) →
    w = xL.toNat + 256 * xH.toNat → h = yL.toNat + 256 * yH.toNat →
    ∃ px, exec (.usImage xL xH yL yH g payload) s = .next
        (s.withDevice s.focus dev (.display { d with px := px })) ∧
      px.length = s.cfg.dispH ∧ (∀ row ∈ px, row.length = s.cfg.dispW) ∧
      ∀ Y < s.cfg.dispH, ∀ X < s.cfg.dispW, pixelAt px Y X =
        if d.cx ≤ X ∧ X < d.cx + w ∧ d.cy ≤ Y ∧ Y < d.cy + 8 * h then
          (payload.getD ((X - d.cx) * h + (Y - d.cy) / 8) 0).getLsbD (7 - (Y - d.cy) % 8)
        else pixelAt d.px Y X

/-- On the display in focus, each of the four stub commands, with any arguments and any payload, answers the very
state it started from: nothing is drawn and nothing is logged. (R243) -/
def Obligations.StubCommandsChangeNothing : Prop :=
  ∀ (s : State) (dev : Device) (d : Display), focused s dev → dev.st = .display d →
    (∀ wL wH cL cH sp, exec (.usScroll wL wH cL cH sp) s = .next s) ∧
    (∀ p t1 t2 c, exec (.usBlink p t1 t2 c) s = .next s) ∧
    (∀ a, exec (.usWinSelect a) s = .next s) ∧
    (∀ a b payload, exec (.usWinDefine a b payload) s = .next s)

/-- If the run is not aborted and the focus is on no live display, every display instruction answers the state it
started from; the same for LEDCTL with no live LED driver and EEADDR with no live EEPROM in focus. The focus is the
model's own way of saying which device these rows are for (log 9). (R102, R79) -/
def Obligations.RowsWithoutTheirDeviceChangeNothing : Prop :=
  ∀ (s : State) (i : Instr) (bytes : List Byte), s.aborted = none →
    (encode i = .stream bytes → (∀ dev d, liveAt s s.focus dev → dev.st ≠ .display d) → exec i s = .next s) ∧
    (∀ ai reg, (∀ dev d, liveAt s s.focus dev → dev.st ≠ .led d) → exec (.ledctl ai reg) s = .next s) ∧
    (∀ hi lo, (∀ dev d, liveAt s s.focus dev → dev.st ≠ .eeprom d) → exec (.eeaddr hi lo) s = .next s)

/-- For every well-formed display instruction (control byte, PRINT, command with any payload), the default command
table and no busy line: writing its bytes one by one to an addressed display that is Receiving with its parser idle
leaves all devices, the log, the free-value counter and the pending actions exactly as exec of the decoded instruction
on that display does, the parser idle and empty again; the trace has one ACK per byte and the listener every byte.
(R221, R222, R223, R224, R225, R226, R227, R231) -/
def Obligations.ParserRunsTheDecodedCommand : Prop :=
  ∀ (i : Instr) (bytes : List Byte) (s : State) (dev : Device) (d : Display) (a : BusAddress),
    WellFormed i → encode i = .stream bytes → addressed s s.focus dev a → dev.st = .display d →
    s.cfg.cmdTable = defaultCommandTable → s.cfg.dispBusyUs = none →
    d.phase = .receiving → d.pstate = .idle → parserEmpty d →
    ∃ t u, runAll (bytes.map (fun b => .write b a false)) s = .next t ∧ exec i s = .next u ∧
      t.devices = u.devices ∧ t.dbglog = u.dbglog ∧ t.draws = u.draws ∧ t.pending = u.pending ∧
      t.trace = s.trace ++ List.replicate bytes.length (ackEvent (addressByte a false)) ∧
      t.openTx = s.openTx.map (fun x => { x with writeBytes := x.writeBytes ++ bytes })

/-- For an addressed display that is Receiving: in Idle, a byte below 0x20 that is no control byte and begins no key
of the table is logged alone; while a prefix is collected, a byte after which no key begins with the prefix is logged
with it. Either way the parser is in Idle with its prefix empty, the run goes on, and the cursor, the magnification,
the grid and the text are unchanged. (R223, R224, R284) -/
def Obligations.UnrecognisedBytesAreLoggedAndDropped : Prop :=
  ∀ (s : State) (k : Nat) (dev : Device) (d : Display) (b : Byte) (a : BusAddress) (rnw : Bool),
    addressed s k dev a → dev.st = .display d → d.phase = .receiving →
    (d.pstate = .idle → b.toNat < 0x20 → b ∉ [0x08, 0x09, 0x0A, 0x0B, 0x0C, 0x0D] →
      (∀ r ∈ s.cfg.cmdTable, r.key.head? ≠ some b) →
      ∃ t d', exec (.write b a rnw) s = .next t ∧ t.aborted = none ∧
        t.dbglog = s.dbglog ++ [{ device := k, bytes := [b] }] ∧
        t.devices = s.devices.set k { dev with st := .display d' } ∧
        d' = { d with busy := d'.busy, busyTimer := d'.busyTimer }) ∧
    (d.pstate = .collectingCommandPrefix → (∀ r ∈ s.cfg.cmdTable, ¬ (d.pfx ++ [b]) <+: r.key) →
      ∃ t d', exec (.write b a rnw) s = .next t ∧ t.aborted = none ∧
        t.dbglog = s.dbglog ++ [{ device := k, bytes := d.pfx ++ [b] }] ∧
        t.devices = s.devices.set k { dev with st := .display d' } ∧
        d' = { d with pstate := .idle, pfx := [], busy := d'.busy, busyTimer := d'.busyTimer })

/-- For an addressed display that is Receiving, DISP_BUSY_US being us: after WRITE the display is what parsing the
byte makes of it with BUSY high and busy_timer the fresh identifier; the pending actions are those before without the
old busy end, and a new busy end due us microseconds from now; the pin event is on the trace exactly if BUSY was low,
before the ACK. When the host timer fires a due one-shot busy end of a live display, BUSY is low and busy_timer none,
one pin event is on the trace, the action is gone, and nothing else has changed. The busy line is the spec's own
decision D40. (R221, R244, R245, R271, R274) -/
def Obligations.BusyPulsePerStreamByte : Prop :=
  (∀ (s : State) (k : Nat) (dev : Device) (d : Display) (b : Byte) (a : BusAddress) (rnw : Bool) (us : Nat),
    addressed s k dev a → dev.st = .display d → d.phase = .receiving → s.cfg.dispBusyUs = some us →
    ∃ t, exec (.write b a rnw) s = .next t ∧ t.aborted = none ∧
      t.devices = s.devices.set k
        { dev with st := .display { (d.parseByte s.env b).1 with busy := true, busyTimer := some s.nextId } } ∧
      t.pending = s.pending.filter (fun x => decide (d.busyTimer ≠ some x.id)) ++
        [{ id := s.nextId, owner := k, fireAt := s.now + us * s.cfg.cyclesPerUs, payload := .busyEnd,
           periodic := none }] ∧
      t.nextId = s.nextId + 1 ∧
      t.trace = s.trace ++ (if d.busy then [] else [.pin k .busy true]) ++ [ackEvent (addressByte a rnw)]) ∧
  (∀ (s : State) (dev : Device) (d : Display) (act : PendingAction) (rest : List HostEvent),
    s.aborted = none → s.inbox = .fire act.id :: rest → s.pending.find? (fun x => x.id == act.id) = some act →
    act.fireAt ≤ s.now → (∀ x ∈ s.pending, act.fireAt ≤ x.fireAt) → act.payload = .busyEnd → act.periodic = none →
    liveAt s act.owner dev → dev.st = .display d →
    step s = .next
      { s.withDevice act.owner dev (.display { d with busy := false, busyTimer := none }) with
        inbox := rest
        pending := s.pending.filter (fun x => x.id != act.id)
        trace := s.trace ++ [.pin act.owner .busy false] })

/-- If an instruction is not PRINT, CLR, ESC_INIT or US_IMAGE, nor a WRITE (which carries such a byte), then the pixel
grid of every display is the same before and after it, whatever state it starts from and whether or not the run
aborts. (R246, R54) -/
def Obligations.PixelsChangeOnlyByDrawing : Prop :=
  ∀ (i : Instr) (s t : State) (k : Nat) (dev dev' : Device) (d d' : Display), exec i s = .next t →
    printByte? i = none → i ≠ .clr → i ≠ .escInit → (∀ xL xH yL yH g p, i ≠ .usImage xL xH yL yH g p) →
    (∀ v a rnw, i ≠ .write v a rnw) →
    s.devices[k]? = some dev → dev.st = .display d → t.devices[k]? = some dev' → dev'.st = .display d' → d'.px = d.px

/-- For the LED driver in focus: LEDCTL with reg up to 0x1B makes sel reg, autoinc the AI bit and the phase DataWrite,
and raises an ACK to the last address byte; with reg 0x1C to 0x1F the run aborts with OutOfRange and the byte, and
nothing else changes. That the row is run directly on the device in focus is the model's choice (logs 9 and 18). (R70,
R114, R207) -/
def Obligations.LedctlSelects : Prop :=
  ∀ (s : State) (dev : Device) (d : Led) (ai : Bool) (reg : BitVec 5), focused s dev → dev.st = .led d →
    (reg.toNat ≤ 0x1B → exec (.ledctl ai reg) s = .next
      { s.withDevice s.focus dev
          (.led { d with core := { d.core with sel := some reg.toNat, phase := .dataWrite }, autoinc := ai })
        with trace := s.trace ++ [ackEvent s.ab] }) ∧
    (0x1B < reg.toNat → exec (.ledctl ai reg) s = .next
      { s with aborted := some { cause := .outOfRange, device := s.focus,
                                 info := .index ((if ai then 128 else 0) + reg.toNat) } })

/-- For the EEPROM in focus: EEADDR makes the pointer 256 * hi + lo, clears the buffered high byte, goes to DataWrite
and raises two ACKs to the last address byte; the buffer and everything else are unchanged. That the row is run
directly on the device in focus is the model's choice (logs 9 and 18). (R67, R162, R163) -/
def Obligations.EeaddrSetsThePointer : Prop :=
  ∀ (s : State) (dev : Device) (d : Eeprom) (hi lo : Byte), focused s dev → dev.st = .eeprom d →
    exec (.eeaddr hi lo) s = .next
      { s.withDevice s.focus dev
          (.eeprom { d with ptr := some (256 * hi.toNat + lo.toNat), addrHi := none, phase := .dataWrite })
        with trace := s.trace ++ [ackEvent s.ab, ackEvent s.ab] }

/-- When the host timer fires the due recurring tick of a live RTC: the action is put back one period later in any
case. With RTC_CH set nothing else changes. Otherwise osc steps modulo 32768; if it wrapped, the carry chain has run
on the registers; then, if the square wave is enabled and the tapped bit of osc differs from the level, the level and
the pin take it and one pin event is appended; at the wrap every bit of osc is 0, so this is the fall of a level that
was 1. Nothing else changes, but that the free values an ill-formed time drew are counted (log 13). (R135, R147, R272,
R274) -/
def Obligations.TickOfTheClock : Prop :=
  ∀ (s : State) (dev : Device) (d : Rtc) (act : PendingAction) (p : Nat) (rest : List HostEvent),
    s.aborted = none → s.inbox = .fire act.id :: rest → s.pending.find? (fun x => x.id == act.id) = some act →
    act.fireAt ≤ s.now → (∀ x ∈ s.pending, act.fireAt ≤ x.fireAt) → act.payload = .rtcTick →
    act.periodic = some p → liveAt s act.owner dev → dev.st = .rtc d →
    ∀ u, u = { s with inbox := rest, pending := s.pending.map (fun x =>
        if x.id = act.id then { x with fireAt := x.fireAt + p } else x) } →
    (rtcHalted d.core.regs = true → step s = .next u) ∧
    (rtcHalted d.core.regs = false → d.osc ≠ 32767 → ∀ lvl,
      lvl = (d.osc + 1).getLsbD (s.cfg.rtcSqwBit.getD (rtcRate d.core.regs) 0) →
      step s = .next (if rtcSquareEnabled d.core.regs = true ∧ lvl ≠ d.sqwLevel then
          { u.withDevice act.owner dev (.rtc { d with osc := d.osc + 1, sqwLevel := lvl, sqwPin := lvl }) with
            trace := s.trace ++ [.pin act.owner .sqw lvl] }
        else u.withDevice act.owner dev (.rtc { d with osc := d.osc + 1 }))) ∧
    (rtcHalted d.core.regs = false → d.osc = 32767 → ∀ c, c = Chain.seconds s.cfg { regs := d.core.regs, draws := s.draws } →
      step s = .next (if rtcSquareEnabled d.core.regs = true ∧ d.sqwLevel = true then
          { u.withDevice act.owner dev (.rtc { d with core := { d.core with regs := c.regs }, osc := 0,
                                                      sqwLevel := false, sqwPin := false }) with
            draws := c.draws, trace := s.trace ++ [.pin act.owner .sqw false] }
        else
          { u.withDevice act.owner dev (.rtc { d with core := { d.core with regs := c.regs }, osc := 0 }) with
            draws := c.draws }))

/-- On well-formed time registers, RtcSecond gives registers that read, in decimal, as the next second: carries at 59,
59, the hour boundary of the mode (24-hour; 12-hour with the AM/PM toggle of the configuration), the week of 7 days,
the length of the month, 12 months and 100 years. The result is well-formed again, no free value is drawn, every bit
outside a field and every register from the control register on is kept. (R136, R137, R138, R139, R140, R141, R142,
R143, R144, R145) -/
def Obligations.SecondIsTheNextOnTheClock : Prop :=
  ∀ (cfg : Config) (regs : List Byte) (n : Nat), 8 ≤ regs.length → timeWf regs = true →
    ∀ c, c = Chain.seconds cfg { regs := regs, draws := n } →
    clockOf c.regs = (clockOf regs).nextSecond cfg (rtcTwelveHour regs) ∧ timeWf c.regs = true ∧ c.draws = n ∧
    c.regs.length = regs.length ∧ (∀ i, 7 ≤ i → c.regs[i]? = regs[i]?) ∧
    regRead c.regs 0 &&& 0x80 = regRead regs 0 &&& 0x80 ∧ regRead c.regs 1 &&& 0x80 = regRead regs 1 &&& 0x80 ∧
    regRead c.regs 2 &&& 0xC0 = regRead regs 2 &&& 0xC0 ∧ regRead c.regs 3 &&& 0xF8 = regRead regs 3 &&& 0xF8 ∧
    regRead c.regs 4 &&& 0xC0 = regRead regs 4 &&& 0xC0 ∧ regRead c.regs 5 &&& 0xE0 = regRead regs 5 &&& 0xE0

/-- On any register file of at least 8 bytes, well-formed or not, and for every value of the free values, RtcSecond
keeps the length, every register from the control register on, and every bit outside the field of each time register:
bit 7 of seconds and minutes, bits 7 and 6 of the hours (and AM/PM when the hours are ill-formed in 12-hour mode),
bits 7:3 of the day, 7:6 of the date, 7:5 of the month. (R136, R146) -/
def Obligations.IllFormedTimeKeepsItsOtherBits : Prop :=
  ∀ (cfg : Config) (regs : List Byte) (n : Nat), 8 ≤ regs.length →
    ∀ r, r = (Chain.seconds cfg { regs := regs, draws := n }).regs →
    r.length = regs.length ∧ (∀ i, 7 ≤ i → r[i]? = regs[i]?) ∧
    regRead r 0 &&& 0x80 = regRead regs 0 &&& 0x80 ∧ regRead r 1 &&& 0x80 = regRead regs 1 &&& 0x80 ∧
    regRead r 2 &&& 0xC0 = regRead regs 2 &&& 0xC0 ∧
    (rtcTwelveHour regs = true → hourWf (regRead regs 2) = false → rtcPm r = rtcPm regs) ∧
    regRead r 3 &&& 0xF8 = regRead regs 3 &&& 0xF8 ∧ regRead r 4 &&& 0xC0 = regRead regs 4 &&& 0xC0 ∧
    regRead r 5 &&& 0xE0 = regRead regs 5 &&& 0xE0

/-- From any RTC with the oscillator enabled and well-formed time, 32768 ticks one after the other leave osc at its
starting value and the registers as one run of the carry chain makes them, phase and selection kept. With RTC_CH set,
any number of ticks changes nothing. (R135, R149) -/
def Obligations.OneSecondIs32768Ticks : Prop :=
  ∀ (env : Env) (d : Rtc), 8 ≤ d.core.regs.length →
    (rtcHalted d.core.regs = false → timeWf d.core.regs = true →
      (rtcTicks env 32768 d).osc = d.osc ∧
      (rtcTicks env 32768 d).core =
        { d.core with regs := (Chain.seconds env.cfg { regs := d.core.regs, draws := env.draws }).regs }) ∧
    (rtcHalted d.core.regs = true → ∀ n, rtcTicks env n d = d)

/-- For a harness call AddKeyRawEvent(b) on a live keypad: code 0 is refused with no effect; with 10 events queued
only kp_overflow is set; otherwise the count is n + 1 (bits 7:4 kept) and slot n is b, and if interrupts are enabled
INT_n is low with one pin event, the status bit and the mask bit are set. Nothing else changes. The refusal and the
overflow are the spec's own decisions D25 and D26. (R181) -/
def Obligations.KeyEventQueued : Prop :=
  ∀ (s : State) (k : Nat) (dev : Device) (d : Keypad) (b : Byte) (n : Nat) (rest : List HostEvent),
    s.aborted = none → s.inbox = .addKeyRawEvent k b :: rest → liveAt s k dev → dev.st = .keypad d →
    n = kpCount d.core.regs → ∀ u, u = { s with inbox := rest } →
    ∀ queued, queued = (d.core.regs.set 3 ((regRead d.core.regs 3 &&& 0xF0) ||| BitVec.ofNat 8 (n + 1))).set (4 + n) b →
    (b.extractLsb' 0 7 = 0 → step s = .next u) ∧
    (b.extractLsb' 0 7 ≠ 0 → 10 ≤ n → step s = .next (u.withDevice k dev (.keypad { d with overflow := true }))) ∧
    (b.extractLsb' 0 7 ≠ 0 → n < 10 → kpInterruptEnabled d.core.regs = false →
      step s = .next (u.withDevice k dev (.keypad { d with core := { d.core with regs := queued } }))) ∧
    (b.extractLsb' 0 7 ≠ 0 → n < 10 → kpInterruptEnabled d.core.regs = true →
      step s = .next
        { u.withDevice k dev (.keypad
            { d with core := { d.core with regs := queued.set 2 (regRead d.core.regs 2 ||| 0x01) }
                     unacked := d.unacked ||| 0x01
                     intN := false }) with
          trace := s.trace ++ [.pin k .intN false] })

/-- AddKeyEvent(direction, row, col) with row and col in bounds steps as AddKeyRawEvent of row*10 + col + 1, with bit
7 set for a press; outside the bounds the call is refused (R180, the spec's own decision D25); that a refused call is
a step that consumes it and changes nothing is the model's choice (log 19). When the host timer fires a due one-shot
KeyRelease(code) of a live keypad, the step is AddKeyRawEvent of the code with bit 7 clear, on the keypad without its
pending release of that code and without the action. The byte decodes to the press bit, the row and the column it was
made of, and a byte of code 0 to no event. (R68, R180, R184) -/
def Obligations.KeyCallsBecomeRawEvents : Prop :=
  (∀ (s : State) (k : Nat) (press : Bool) (row col : Nat) (rest : List HostEvent), s.aborted = none →
    s.inbox = .addKeyEvent k press row col :: rest →
    (row < s.cfg.kpRows ∧ col < s.cfg.kpCols → step s = step
      { s with
        inbox := .addKeyRawEvent k (BitVec.ofNat 8 (row * 10 + col + 1) ||| (if press then 0x80 else 0x00)) :: rest }) ∧
    (¬ (row < s.cfg.kpRows ∧ col < s.cfg.kpCols) → step s = .next { s with inbox := rest })) ∧
  (∀ (s : State) (dev : Device) (d : Keypad) (act : PendingAction) (code : Nat) (rest : List HostEvent),
    s.aborted = none → s.inbox = .fire act.id :: rest → s.pending.find? (fun x => x.id == act.id) = some act →
    act.fireAt ≤ s.now → (∀ x ∈ s.pending, act.fireAt ≤ x.fireAt) → act.payload = .keyRelease code →
    act.periodic = none → liveAt s act.owner dev → dev.st = .keypad d →
    step s = step { s.withDevice act.owner dev
        (.keypad { d with pendingRelease := d.pendingRelease.filter (fun e => e.1 != code) }) with
      inbox := .addKeyRawEvent act.owner (BitVec.ofNat 8 code) :: rest
      pending := s.pending.filter (fun x => x.id != act.id) }) ∧
  (∀ (press : Bool) (row col : Nat), col < 10 → row * 10 + col + 1 ≤ 127 →
    decodeKeyEvent (BitVec.ofNat 8 (row * 10 + col + 1) ||| (if press then 0x80 else 0x00)) =
      some { pressed := press, row := row, col := col }) ∧
  decodeKeyEvent 0x00 = none ∧ decodeKeyEvent 0x80 = none

/-- For a live keypad and a key in bounds: the call does to every register, pin, mask, trace and log what
AddKeyEvent(press) does; the pending actions are those before without the earlier release of this key, and a new
one-shot release of this key due KP_RELEASE_DELAY_US from now under the fresh identifier, to which the key is mapped;
the releases of other keys are as before. (R183, R271, R273, R276) -/
def Obligations.PressAndReleaseSchedulesOneRelease : Prop :=
  ∀ (s : State) (k : Nat) (dev : Device) (d : Keypad) (row col code : Nat) (rest : List HostEvent),
    s.aborted = none → s.inbox = .addKeyPressAndRelease k row col :: rest → liveAt s k dev → dev.st = .keypad d →
    row < s.cfg.kpRows → col < s.cfg.kpCols → code = row * 10 + col + 1 →
    ∃ t u d' du, step s = .next t ∧ step { s with inbox := .addKeyEvent k true row col :: rest } = .next u ∧
      t.devices = s.devices.set k { dev with st := .keypad d' } ∧
      u.devices = s.devices.set k { dev with st := .keypad du } ∧
      d' = { du with pendingRelease := d'.pendingRelease } ∧
      mapFind? d'.pendingRelease code = some s.nextId ∧
      (∀ c, c ≠ code → mapFind? d'.pendingRelease c = mapFind? d.pendingRelease c) ∧
      t.pending = s.pending.filter (fun x => decide (mapFind? d.pendingRelease code ≠ some x.id)) ++
        [{ id := s.nextId, owner := k, fireAt := s.now + s.cfg.kpReleaseDelayUs * s.cfg.cyclesPerUs,
           payload := .keyRelease code, periodic := none }] ∧
      t.nextId = s.nextId + 1 ∧ t.trace = u.trace ∧ t.dbglog = u.dbglog ∧ t.openTx = u.openTx ∧ t.aborted = none

/-- In any step: if the interrupt line of a keypad goes from 0 to 1, the step handled a WRITE that the keypad accepted
in DataWrite with KP_INT_STAT selected, whose byte cleared the last unacknowledged bit; if it goes from 1 to 0,
interrupts were enabled, the FIFO was not full, the keypad was live, and the step handled a harness call on this
keypad (AddKeyEvent, AddKeyRawEvent, AddKeyPressAndRelease by position or by code) or fired a due KeyRelease it owns:
the moves that reach AddKeyRawEvent, R181. (R34, R181, R188, R190, R192, R288) -/
def Obligations.InterruptLineMovesOnlyByItsRules : Prop :=
  ∀ (s t : State) (k : Nat) (dev dev' : Device) (d d' : Keypad), step s = .next t →
    s.devices[k]? = some dev → dev.st = .keypad d → t.devices[k]? = some dev' → dev'.st = .keypad d' →
    (d.intN = false → d'.intN = true →
      ∃ order focus w rest, s.inbox = .operation order focus (.busOut w) :: rest ∧ dev.live = true ∧
        dev.accepts (w.extractLsb' 17 7) = true ∧ w &&& 0x00003300 = 0x00001000 ∧
        d.core.phase = .dataWrite ∧ d.core.sel = some 2 ∧ d.unacked &&& ~~~(w.extractLsb' 24 8) = 0) ∧
    (d.intN = true → d'.intN = false →
      kpInterruptEnabled d.core.regs = true ∧ kpCount d.core.regs < 10 ∧ dev.live = true ∧
      ∃ e rest, s.inbox = e :: rest ∧
        ((∃ press row col, e = .addKeyEvent k press row col) ∨ (∃ b, e = .addKeyRawEvent k b) ∨
          (∃ row col, e = .addKeyPressAndRelease k row col) ∨ (∃ code, e = .addKeyPressAndReleaseCode k code) ∨
          ∃ act code, e = .fire act.id ∧ act ∈ s.pending ∧ act.owner = k ∧ act.payload = .keyRelease code ∧
            act.fireAt ≤ s.now))

/-- If the host timer is asked to fire an identifier that is not pending (cancelled or already fired), or an action
whose fire_at is beyond now, or one while another is due earlier, the step consumes the request and changes nothing
else. That a request that is not enabled is a step without effect is the model's choice (log 30). (R273, R274, R275)
-/
def Obligations.TimerFiresOnlyWhatIsDueFirst : Prop :=
  ∀ (s : State) (id : Nat) (rest : List HostEvent), s.aborted = none → s.inbox = .fire id :: rest →
    (s.pending.find? (fun x => x.id == id) = none ∨
      ∃ act, s.pending.find? (fun x => x.id == id) = some act ∧
        (s.now < act.fireAt ∨ ∃ x ∈ s.pending, x.fireAt < act.fireAt)) →
    step s = .next { s with inbox := rest }

/-- From any unaborted state with no transaction open: if START_W to a, WRITEs of the bytes, and STOP run to the end,
whatever devices matched, then the finished list is the old one with one record in front (address a, direction Write,
not repeated, the bytes in order, no byte read), cut to 100 entries, and no transaction is open. If no live device
accepts a, they do run to the end and the trace is unchanged. (R260, R261, R262, R264, R268) -/
def Obligations.TranscriptOfAWrite : Prop :=
  ∀ (s : State) (a : BusAddress) (bytes : List Byte) (ds de : Byte), s.aborted = none → s.openTx = none →
    ∀ is, is = Instr.startW ds a :: (bytes.map (fun b => Instr.write b a false) ++ [Instr.stop de a false]) →
    (∀ t, runAll is s = .next t → t.openTx = none ∧
      t.finished = ((⟨a, some .write, false, bytes, []⟩ : Transaction) :: s.finished).take 100) ∧
    (noMatch s a → ∃ t, runAll is s = .next t ∧ t.aborted = none ∧ t.trace = s.trace)

/-- For a consumer's GetCurrentState on a live LED driver: if no channel is in mode 0b11 the answer is the sixteen
bytes, 0x00 for mode 00, 0xFF for 01, the duty register for 10, and no other state is written; otherwise the run
aborts with Unimplemented and the lowest such channel, and nothing else is written. The places of the modes and duties
are the spec's own decision D32; that the result is recorded in answers is the model's choice (log 23). (R211, R212)
-/
def Obligations.LedDutyArray : Prop :=
  ∀ (s : State) (k : Nat) (dev : Device) (d : Led) (rest : List HostEvent) (mode : Nat → Nat),
    s.aborted = none → s.inbox = .getCurrentState k :: rest → liveAt s k dev → dev.st = .led d →
    (∀ n, mode n = (regRead d.core.regs (0x14 + n / 4)).toNat / 2 ^ (2 * (n % 4)) % 4) →
    ((∀ n < 16, mode n ≠ 3) → step s = .next
      { s with
        inbox := rest
        answers := s.answers ++ [.duty k ((List.range 16).map (fun n =>
          if mode n = 0 then 0x00 else if mode n = 1 then 0xFF else regRead d.core.regs (0x02 + n)))] }) ∧
    (∀ n < 16, mode n = 3 → (∀ m < n, mode m ≠ 3) → step s = .next
      { s with inbox := rest, aborted := some { cause := .unimplemented, device := k, info := .feature n } })

/-- The step that destroys a live device leaves no pending action it owns and every action of the others, and the
position not live; it emits nothing. That the device keeps its position with live false is the model's choice (log
26), and that no pin is driven is deduced (log 36). And in every step from any state a device that is not live stays
as it is: no message, timer or harness call reaches it. (R185, R312) -/
def Obligations.DestroyedDeviceIsGone : Prop :=
  (∀ (s : State) (k : Nat) (dev : Device) (rest : List HostEvent), s.aborted = none →
    s.inbox = .destroy k :: rest → liveAt s k dev →
    ∃ t dev', step s = .next t ∧ t.pending = s.pending.filter (fun x => x.owner != k) ∧
      t.devices = s.devices.set k dev' ∧ dev'.live = false ∧ t.trace = s.trace ∧ t.aborted = none) ∧
  (∀ (s t : State) (k : Nat) (dev : Device), step s = .next t → s.devices[k]? = some dev → dev.live = false →
    t.devices[k]? = some dev)

/-- For an addressed RTC, or LED driver with auto-increment, in DataWrite with register R selected: writing N bytes
one after the other completes, has stored byte j at register (R + j) mod the size of the file for each j in order (a
later byte overwrites an earlier one at the same register), leaves (R + N) mod the size selected, and has one ACK per
byte on the trace. For an addressed keypad the same, the keypad's own register write (plain, discarded or an
acknowledge) being applied to each register in order; beside the ACKs only the release of its interrupt line is on the
trace. (R115, R118, R120, R175, R187, R210, R214) -/
def Obligations.AutoIncrementWritesInOrder : Prop :=
  (∀ (s : State) (k : Nat) (dev : Device) (d : Rtc) (a : BusAddress) (R : Nat) (vs : List Byte),
    addressed s k dev a → dev.st = .rtc d → d.core.phase = .dataWrite → d.core.sel = some R → R ≤ s.cfg.rtcLast →
    ∃ t, runAll (vs.map (fun v => .write v a false)) s = .next t ∧ t.aborted = none ∧
      t.devices = s.devices.set k { dev with st := .rtc { d with core := { d.core with
        regs := vs.zipIdx.foldl (fun regs e => regs.set ((R + e.2) % (s.cfg.rtcLast + 1)) e.1) d.core.regs
        sel := some ((R + vs.length) % (s.cfg.rtcLast + 1)) } } } ∧
      t.trace = s.trace ++ List.replicate vs.length (ackEvent (addressByte a false))) ∧
  (∀ (s : State) (k : Nat) (dev : Device) (d : Led) (a : BusAddress) (R : Nat) (vs : List Byte),
    addressed s k dev a → dev.st = .led d → d.autoinc = true → d.core.phase = .dataWrite →
    d.core.sel = some R → R ≤ 0x1B →
    ∃ t, runAll (vs.map (fun v => .write v a false)) s = .next t ∧ t.aborted = none ∧
      t.devices = s.devices.set k { dev with st := .led { d with core := { d.core with
        regs := vs.zipIdx.foldl (fun regs e => regs.set ((R + e.2) % 28) e.1) d.core.regs
        sel := some ((R + vs.length) % 28) } } } ∧
      t.trace = s.trace ++ List.replicate vs.length (ackEvent (addressByte a false))) ∧
  (∀ (s : State) (k : Nat) (dev : Device) (d : Keypad) (a : BusAddress) (R : Nat) (vs : List Byte),
    addressed s k dev a → dev.st = .keypad d → d.core.phase = .dataWrite → d.core.sel = some R → R ≤ 0x2E →
    ∀ w, w = vs.zipIdx.foldl (fun d e => (d.writeReg ((R + e.2) % 47) e.1).1) d →
    ∃ t l, runAll (vs.map (fun v => .write v a false)) s = .next t ∧ t.aborted = none ∧
      t.devices = s.devices.set k { dev with st := .keypad { w with core := { w.core with
        sel := some ((R + vs.length) % 47) } } } ∧
      t.trace = s.trace ++ l ∧
      l.filter (fun e => e == ackEvent (addressByte a false)) =
        List.replicate vs.length (ackEvent (addressByte a false)) ∧
      ∀ e ∈ l, e = ackEvent (addressByte a false) ∨ e = .pin k .intN true)

/-- For an addressed EEPROM in any phase: START_W, the two address bytes of A, N bytes with A + N at most EE_SIZE, and
STOP complete; afterwards each address from A to A + N - 1 reads as its byte, every other address as before, and the
EEPROM is in Idle with no pointer. (R78, R161, R165, R170) -/
def Obligations.EepromWriteTransaction : Prop :=
  ∀ (s : State) (k : Nat) (dev : Device) (d : Eeprom) (a : BusAddress) (hi lo : Byte) (A : Nat) (vs : List Byte)
    (ds de : Byte), addressed s k dev a → dev.st = .eeprom d → A = 256 * hi.toNat + lo.toNat →
    A + vs.length ≤ s.cfg.eeSize →
    ∃ t d', runAll (.startW ds a :: .write hi a false :: .write lo a false ::
        (vs.map (fun v => .write v a false) ++ [.stop de a false])) s = .next t ∧ t.aborted = none ∧
      t.devices[k]? = some { dev with st := .eeprom d' } ∧ d'.phase = .idle ∧ d'.ptr = none ∧
      ∀ j, memRead d'.buf j = if A ≤ j ∧ j < A + vs.length then vs.getD (j - A) 0 else memRead d.buf j

/-- For an addressed EEPROM in any phase: START_W, the two address bytes of A, START_R and N READs with A + N at most
EE_SIZE complete; the trace has four ACKs and then one ACK_READ for each of the bytes at A to A + N - 1 in order; the
buffer is unchanged and the pointer is A + N. The STOP that ends the transaction completes, raises nothing, and leaves
the EEPROM in Idle with no pointer and the buffer unchanged. (R78, R164, R166, R167, R170) -/
def Obligations.EepromReadTransaction : Prop :=
  ∀ (s : State) (k : Nat) (dev : Device) (d : Eeprom) (a : BusAddress) (hi lo : Byte) (A N : Nat)
    (ds dr dd de : Byte), addressed s k dev a → dev.st = .eeprom d → A = 256 * hi.toNat + lo.toNat →
    A + N ≤ s.cfg.eeSize →
    ∃ t u, runAll (.startW ds a :: .write hi a false :: .write lo a false :: .startR dr a ::
        List.replicate N (.read dd a true)) s = .next t ∧ t.aborted = none ∧
      t.devices[k]? = some
        { dev with st := .eeprom { phase := .dataRead, addrHi := none, ptr := some (A + N), buf := d.buf } } ∧
      t.trace = s.trace ++ List.replicate 3 (ackEvent (addressByte a false)) ++ [ackEvent (addressByte a true)] ++
        (List.range N).map (fun j => ackReadEvent (memRead d.buf (A + j)) (addressByte a true)) ∧
      exec (.stop de a true) t = .next u ∧ u.aborted = none ∧ u.trace = t.trace ∧
      u.devices[k]? = some { dev with st := .eeprom { phase := .idle, addrHi := none, ptr := none, buf := d.buf } }

/-- If after a step some address of an EEPROM reads differently, the step handled a WRITE that the EEPROM accepted in
DataWrite, the address is the pointer, which was below EE_SIZE, and the byte now read is the byte written. (R54, R165,
R170) -/
def Obligations.EepromChangesOnlyByDataWrites : Prop :=
  ∀ (s t : State) (k : Nat) (dev dev' : Device) (d d' : Eeprom) (j : Nat), step s = .next t →
    s.devices[k]? = some dev → dev.st = .eeprom d → t.devices[k]? = some dev' → dev'.st = .eeprom d' →
    memRead d'.buf j ≠ memRead d.buf j →
    ∃ order focus w rest, s.inbox = .operation order focus (.busOut w) :: rest ∧ dev.live = true ∧
      dev.accepts (w.extractLsb' 17 7) = true ∧ w &&& 0x00003300 = 0x00001000 ∧ d.phase = .dataWrite ∧
      d.ptr = some j ∧ j < s.cfg.eeSize ∧ memRead d'.buf j = w.extractLsb' 24 8
end

