-- ==== Sys2Proof/Laws/State.lean ====
section
/-! SUPPORT. One lemma per field per update of the state. -/

namespace Sys2Proof.Machine

variable (s : State)

/-! ## raiseFatal -/

@[simp] theorem raiseFatal_aborted (k : Nat) (c : Cause) (info : FaultInfo) :
    (s.raiseFatal k c info).aborted = some { cause := c, device := k, info := info } := rfl
@[simp] theorem raiseFatal_devices (k : Nat) (c : Cause) (info : FaultInfo) : (s.raiseFatal k c info).devices = s.devices := rfl
@[simp] theorem raiseFatal_now (k : Nat) (c : Cause) (info : FaultInfo) : (s.raiseFatal k c info).now = s.now := rfl
@[simp] theorem raiseFatal_pending (k : Nat) (c : Cause) (info : FaultInfo) : (s.raiseFatal k c info).pending = s.pending := rfl
@[simp] theorem raiseFatal_openTx (k : Nat) (c : Cause) (info : FaultInfo) : (s.raiseFatal k c info).openTx = s.openTx := rfl
@[simp] theorem raiseFatal_finished (k : Nat) (c : Cause) (info : FaultInfo) : (s.raiseFatal k c info).finished = s.finished := rfl
@[simp] theorem raiseFatal_onComplete (k : Nat) (c : Cause) (info : FaultInfo) : (s.raiseFatal k c info).onComplete = s.onComplete := rfl
@[simp] theorem raiseFatal_trace (k : Nat) (c : Cause) (info : FaultInfo) : (s.raiseFatal k c info).trace = s.trace := rfl
@[simp] theorem raiseFatal_dbglog (k : Nat) (c : Cause) (info : FaultInfo) : (s.raiseFatal k c info).dbglog = s.dbglog := rfl
@[simp] theorem raiseFatal_cfg (k : Nat) (c : Cause) (info : FaultInfo) : (s.raiseFatal k c info).cfg = s.cfg := rfl
@[simp] theorem raiseFatal_inbox (k : Nat) (c : Cause) (info : FaultInfo) : (s.raiseFatal k c info).inbox = s.inbox := rfl
@[simp] theorem raiseFatal_order (k : Nat) (c : Cause) (info : FaultInfo) : (s.raiseFatal k c info).order = s.order := rfl
@[simp] theorem raiseFatal_focus (k : Nat) (c : Cause) (info : FaultInfo) : (s.raiseFatal k c info).focus = s.focus := rfl
@[simp] theorem raiseFatal_ab (k : Nat) (c : Cause) (info : FaultInfo) : (s.raiseFatal k c info).ab = s.ab := rfl
@[simp] theorem raiseFatal_nextId (k : Nat) (c : Cause) (info : FaultInfo) : (s.raiseFatal k c info).nextId = s.nextId := rfl
@[simp] theorem raiseFatal_draws (k : Nat) (c : Cause) (info : FaultInfo) : (s.raiseFatal k c info).draws = s.draws := rfl
@[simp] theorem raiseFatal_calls (k : Nat) (c : Cause) (info : FaultInfo) : (s.raiseFatal k c info).calls = s.calls := rfl
@[simp] theorem raiseFatal_answers (k : Nat) (c : Cause) (info : FaultInfo) : (s.raiseFatal k c info).answers = s.answers := rfl

/-! ## emitPin -/

@[simp] theorem emitPin_aborted (k : Nat) (p : Pin) (level : Bool) : (s.emitPin k p level).aborted = s.aborted := rfl
@[simp] theorem emitPin_devices (k : Nat) (p : Pin) (level : Bool) : (s.emitPin k p level).devices = s.devices := rfl
@[simp] theorem emitPin_now (k : Nat) (p : Pin) (level : Bool) : (s.emitPin k p level).now = s.now := rfl
@[simp] theorem emitPin_pending (k : Nat) (p : Pin) (level : Bool) : (s.emitPin k p level).pending = s.pending := rfl
@[simp] theorem emitPin_openTx (k : Nat) (p : Pin) (level : Bool) : (s.emitPin k p level).openTx = s.openTx := rfl
@[simp] theorem emitPin_finished (k : Nat) (p : Pin) (level : Bool) : (s.emitPin k p level).finished = s.finished := rfl
@[simp] theorem emitPin_onComplete (k : Nat) (p : Pin) (level : Bool) : (s.emitPin k p level).onComplete = s.onComplete := rfl
@[simp] theorem emitPin_trace (k : Nat) (p : Pin) (level : Bool) :
    (s.emitPin k p level).trace = s.trace ++ [.pin k p level] := rfl
@[simp] theorem emitPin_dbglog (k : Nat) (p : Pin) (level : Bool) : (s.emitPin k p level).dbglog = s.dbglog := rfl
@[simp] theorem emitPin_cfg (k : Nat) (p : Pin) (level : Bool) : (s.emitPin k p level).cfg = s.cfg := rfl
@[simp] theorem emitPin_inbox (k : Nat) (p : Pin) (level : Bool) : (s.emitPin k p level).inbox = s.inbox := rfl
@[simp] theorem emitPin_order (k : Nat) (p : Pin) (level : Bool) : (s.emitPin k p level).order = s.order := rfl
@[simp] theorem emitPin_focus (k : Nat) (p : Pin) (level : Bool) : (s.emitPin k p level).focus = s.focus := rfl
@[simp] theorem emitPin_ab (k : Nat) (p : Pin) (level : Bool) : (s.emitPin k p level).ab = s.ab := rfl
@[simp] theorem emitPin_nextId (k : Nat) (p : Pin) (level : Bool) : (s.emitPin k p level).nextId = s.nextId := rfl
@[simp] theorem emitPin_draws (k : Nat) (p : Pin) (level : Bool) : (s.emitPin k p level).draws = s.draws := rfl
@[simp] theorem emitPin_calls (k : Nat) (p : Pin) (level : Bool) : (s.emitPin k p level).calls = s.calls := rfl
@[simp] theorem emitPin_answers (k : Nat) (p : Pin) (level : Bool) : (s.emitPin k p level).answers = s.answers := rfl

/-! ## logUnrecognized -/

@[simp] theorem logUnrecognized_aborted (k : Nat) (bytes : List Byte) : (s.logUnrecognized k bytes).aborted = s.aborted := rfl
@[simp] theorem logUnrecognized_devices (k : Nat) (bytes : List Byte) : (s.logUnrecognized k bytes).devices = s.devices := rfl
@[simp] theorem logUnrecognized_now (k : Nat) (bytes : List Byte) : (s.logUnrecognized k bytes).now = s.now := rfl
@[simp] theorem logUnrecognized_pending (k : Nat) (bytes : List Byte) : (s.logUnrecognized k bytes).pending = s.pending := rfl
@[simp] theorem logUnrecognized_openTx (k : Nat) (bytes : List Byte) : (s.logUnrecognized k bytes).openTx = s.openTx := rfl
@[simp] theorem logUnrecognized_finished (k : Nat) (bytes : List Byte) : (s.logUnrecognized k bytes).finished = s.finished := rfl
@[simp] theorem logUnrecognized_onComplete (k : Nat) (bytes : List Byte) : (s.logUnrecognized k bytes).onComplete = s.onComplete := rfl
@[simp] theorem logUnrecognized_trace (k : Nat) (bytes : List Byte) : (s.logUnrecognized k bytes).trace = s.trace := rfl
@[simp] theorem logUnrecognized_dbglog (k : Nat) (bytes : List Byte) :
    (s.logUnrecognized k bytes).dbglog = s.dbglog ++ [{ device := k, bytes := bytes }] := rfl
@[simp] theorem logUnrecognized_cfg (k : Nat) (bytes : List Byte) : (s.logUnrecognized k bytes).cfg = s.cfg := rfl
@[simp] theorem logUnrecognized_inbox (k : Nat) (bytes : List Byte) : (s.logUnrecognized k bytes).inbox = s.inbox := rfl
@[simp] theorem logUnrecognized_order (k : Nat) (bytes : List Byte) : (s.logUnrecognized k bytes).order = s.order := rfl
@[simp] theorem logUnrecognized_focus (k : Nat) (bytes : List Byte) : (s.logUnrecognized k bytes).focus = s.focus := rfl
@[simp] theorem logUnrecognized_ab (k : Nat) (bytes : List Byte) : (s.logUnrecognized k bytes).ab = s.ab := rfl
@[simp] theorem logUnrecognized_nextId (k : Nat) (bytes : List Byte) : (s.logUnrecognized k bytes).nextId = s.nextId := rfl
@[simp] theorem logUnrecognized_draws (k : Nat) (bytes : List Byte) : (s.logUnrecognized k bytes).draws = s.draws := rfl
@[simp] theorem logUnrecognized_calls (k : Nat) (bytes : List Byte) : (s.logUnrecognized k bytes).calls = s.calls := rfl
@[simp] theorem logUnrecognized_answers (k : Nat) (bytes : List Byte) : (s.logUnrecognized k bytes).answers = s.answers := rfl

/-! ## schedule -/

@[simp] theorem schedule_aborted (k us : Nat) (p : Payload) : (s.schedule k us p).aborted = s.aborted := rfl
@[simp] theorem schedule_devices (k us : Nat) (p : Payload) : (s.schedule k us p).devices = s.devices := rfl
@[simp] theorem schedule_now (k us : Nat) (p : Payload) : (s.schedule k us p).now = s.now := rfl
@[simp] theorem schedule_pending (k us : Nat) (p : Payload) :
    (s.schedule k us p).pending = s.pending ++ [{ id := s.nextId, owner := k, fireAt := s.now + us * s.cfg.cyclesPerUs, payload := p, periodic := none }] := rfl
@[simp] theorem schedule_openTx (k us : Nat) (p : Payload) : (s.schedule k us p).openTx = s.openTx := rfl
@[simp] theorem schedule_finished (k us : Nat) (p : Payload) : (s.schedule k us p).finished = s.finished := rfl
@[simp] theorem schedule_onComplete (k us : Nat) (p : Payload) : (s.schedule k us p).onComplete = s.onComplete := rfl
@[simp] theorem schedule_trace (k us : Nat) (p : Payload) : (s.schedule k us p).trace = s.trace := rfl
@[simp] theorem schedule_dbglog (k us : Nat) (p : Payload) : (s.schedule k us p).dbglog = s.dbglog := rfl
@[simp] theorem schedule_cfg (k us : Nat) (p : Payload) : (s.schedule k us p).cfg = s.cfg := rfl
@[simp] theorem schedule_inbox (k us : Nat) (p : Payload) : (s.schedule k us p).inbox = s.inbox := rfl
@[simp] theorem schedule_order (k us : Nat) (p : Payload) : (s.schedule k us p).order = s.order := rfl
@[simp] theorem schedule_focus (k us : Nat) (p : Payload) : (s.schedule k us p).focus = s.focus := rfl
@[simp] theorem schedule_ab (k us : Nat) (p : Payload) : (s.schedule k us p).ab = s.ab := rfl
@[simp] theorem schedule_nextId (k us : Nat) (p : Payload) :
    (s.schedule k us p).nextId = s.nextId + 1 := rfl
@[simp] theorem schedule_draws (k us : Nat) (p : Payload) : (s.schedule k us p).draws = s.draws := rfl
@[simp] theorem schedule_calls (k us : Nat) (p : Payload) : (s.schedule k us p).calls = s.calls := rfl
@[simp] theorem schedule_answers (k us : Nat) (p : Payload) : (s.schedule k us p).answers = s.answers := rfl

/-! ## cancel -/

@[simp] theorem cancel_aborted (id : Nat) : (s.cancel id).aborted = s.aborted := rfl
@[simp] theorem cancel_devices (id : Nat) : (s.cancel id).devices = s.devices := rfl
@[simp] theorem cancel_now (id : Nat) : (s.cancel id).now = s.now := rfl
@[simp] theorem cancel_pending (id : Nat) :
    (s.cancel id).pending = s.pending.filter (fun a => a.id != id) := rfl
@[simp] theorem cancel_openTx (id : Nat) : (s.cancel id).openTx = s.openTx := rfl
@[simp] theorem cancel_finished (id : Nat) : (s.cancel id).finished = s.finished := rfl
@[simp] theorem cancel_onComplete (id : Nat) : (s.cancel id).onComplete = s.onComplete := rfl
@[simp] theorem cancel_trace (id : Nat) : (s.cancel id).trace = s.trace := rfl
@[simp] theorem cancel_dbglog (id : Nat) : (s.cancel id).dbglog = s.dbglog := rfl
@[simp] theorem cancel_cfg (id : Nat) : (s.cancel id).cfg = s.cfg := rfl
@[simp] theorem cancel_inbox (id : Nat) : (s.cancel id).inbox = s.inbox := rfl
@[simp] theorem cancel_order (id : Nat) : (s.cancel id).order = s.order := rfl
@[simp] theorem cancel_focus (id : Nat) : (s.cancel id).focus = s.focus := rfl
@[simp] theorem cancel_ab (id : Nat) : (s.cancel id).ab = s.ab := rfl
@[simp] theorem cancel_nextId (id : Nat) : (s.cancel id).nextId = s.nextId := rfl
@[simp] theorem cancel_draws (id : Nat) : (s.cancel id).draws = s.draws := rfl
@[simp] theorem cancel_calls (id : Nat) : (s.cancel id).calls = s.calls := rfl
@[simp] theorem cancel_answers (id : Nat) : (s.cancel id).answers = s.answers := rfl

/-! ## advance -/

@[simp] theorem advance_aborted (n : Nat) : (s.advance n).aborted = s.aborted := rfl
@[simp] theorem advance_devices (n : Nat) : (s.advance n).devices = s.devices := rfl
@[simp] theorem advance_now (n : Nat) :
    (s.advance n).now = s.now + n := rfl
@[simp] theorem advance_pending (n : Nat) : (s.advance n).pending = s.pending := rfl
@[simp] theorem advance_openTx (n : Nat) : (s.advance n).openTx = s.openTx := rfl
@[simp] theorem advance_finished (n : Nat) : (s.advance n).finished = s.finished := rfl
@[simp] theorem advance_onComplete (n : Nat) : (s.advance n).onComplete = s.onComplete := rfl
@[simp] theorem advance_trace (n : Nat) : (s.advance n).trace = s.trace := rfl
@[simp] theorem advance_dbglog (n : Nat) : (s.advance n).dbglog = s.dbglog := rfl
@[simp] theorem advance_cfg (n : Nat) : (s.advance n).cfg = s.cfg := rfl
@[simp] theorem advance_inbox (n : Nat) : (s.advance n).inbox = s.inbox := rfl
@[simp] theorem advance_order (n : Nat) : (s.advance n).order = s.order := rfl
@[simp] theorem advance_focus (n : Nat) : (s.advance n).focus = s.focus := rfl
@[simp] theorem advance_ab (n : Nat) : (s.advance n).ab = s.ab := rfl
@[simp] theorem advance_nextId (n : Nat) : (s.advance n).nextId = s.nextId := rfl
@[simp] theorem advance_draws (n : Nat) : (s.advance n).draws = s.draws := rfl
@[simp] theorem advance_calls (n : Nat) : (s.advance n).calls = s.calls := rfl
@[simp] theorem advance_answers (n : Nat) : (s.advance n).answers = s.answers := rfl

/-! ## setDevice -/

@[simp] theorem setDevice_aborted (k : Nat) (d : Device) : (s.setDevice k d).aborted = s.aborted := rfl
@[simp] theorem setDevice_devices (k : Nat) (d : Device) :
    (s.setDevice k d).devices = s.devices.set k d := rfl
@[simp] theorem setDevice_now (k : Nat) (d : Device) : (s.setDevice k d).now = s.now := rfl
@[simp] theorem setDevice_pending (k : Nat) (d : Device) : (s.setDevice k d).pending = s.pending := rfl
@[simp] theorem setDevice_openTx (k : Nat) (d : Device) : (s.setDevice k d).openTx = s.openTx := rfl
@[simp] theorem setDevice_finished (k : Nat) (d : Device) : (s.setDevice k d).finished = s.finished := rfl
@[simp] theorem setDevice_onComplete (k : Nat) (d : Device) : (s.setDevice k d).onComplete = s.onComplete := rfl
@[simp] theorem setDevice_trace (k : Nat) (d : Device) : (s.setDevice k d).trace = s.trace := rfl
@[simp] theorem setDevice_dbglog (k : Nat) (d : Device) : (s.setDevice k d).dbglog = s.dbglog := rfl
@[simp] theorem setDevice_cfg (k : Nat) (d : Device) : (s.setDevice k d).cfg = s.cfg := rfl
@[simp] theorem setDevice_inbox (k : Nat) (d : Device) : (s.setDevice k d).inbox = s.inbox := rfl
@[simp] theorem setDevice_order (k : Nat) (d : Device) : (s.setDevice k d).order = s.order := rfl
@[simp] theorem setDevice_focus (k : Nat) (d : Device) : (s.setDevice k d).focus = s.focus := rfl
@[simp] theorem setDevice_ab (k : Nat) (d : Device) : (s.setDevice k d).ab = s.ab := rfl
@[simp] theorem setDevice_nextId (k : Nat) (d : Device) : (s.setDevice k d).nextId = s.nextId := rfl
@[simp] theorem setDevice_draws (k : Nat) (d : Device) : (s.setDevice k d).draws = s.draws := rfl
@[simp] theorem setDevice_calls (k : Nat) (d : Device) : (s.setDevice k d).calls = s.calls := rfl
@[simp] theorem setDevice_answers (k : Nat) (d : Device) : (s.setDevice k d).answers = s.answers := rfl

/-! ## listenStart -/

@[simp] theorem listenStart_aborted (m : BusMessage) : (s.listenStart m).aborted = s.aborted := rfl
@[simp] theorem listenStart_devices (m : BusMessage) : (s.listenStart m).devices = s.devices := rfl
@[simp] theorem listenStart_now (m : BusMessage) : (s.listenStart m).now = s.now := rfl
@[simp] theorem listenStart_pending (m : BusMessage) : (s.listenStart m).pending = s.pending := rfl
@[simp] theorem listenStart_openTx (m : BusMessage) :
    (s.listenStart m).openTx = txStart s.openTx m := rfl
@[simp] theorem listenStart_finished (m : BusMessage) : (s.listenStart m).finished = s.finished := rfl
@[simp] theorem listenStart_onComplete (m : BusMessage) : (s.listenStart m).onComplete = s.onComplete := rfl
@[simp] theorem listenStart_trace (m : BusMessage) : (s.listenStart m).trace = s.trace := rfl
@[simp] theorem listenStart_dbglog (m : BusMessage) : (s.listenStart m).dbglog = s.dbglog := rfl
@[simp] theorem listenStart_cfg (m : BusMessage) : (s.listenStart m).cfg = s.cfg := rfl
@[simp] theorem listenStart_inbox (m : BusMessage) : (s.listenStart m).inbox = s.inbox := rfl
@[simp] theorem listenStart_order (m : BusMessage) : (s.listenStart m).order = s.order := rfl
@[simp] theorem listenStart_focus (m : BusMessage) : (s.listenStart m).focus = s.focus := rfl
@[simp] theorem listenStart_ab (m : BusMessage) : (s.listenStart m).ab = s.ab := rfl
@[simp] theorem listenStart_nextId (m : BusMessage) : (s.listenStart m).nextId = s.nextId := rfl
@[simp] theorem listenStart_draws (m : BusMessage) : (s.listenStart m).draws = s.draws := rfl
@[simp] theorem listenStart_calls (m : BusMessage) : (s.listenStart m).calls = s.calls := rfl
@[simp] theorem listenStart_answers (m : BusMessage) : (s.listenStart m).answers = s.answers := rfl

/-! ## listenWrite -/

@[simp] theorem listenWrite_aborted (b : Byte) : (s.listenWrite b).aborted = s.aborted := rfl
@[simp] theorem listenWrite_devices (b : Byte) : (s.listenWrite b).devices = s.devices := rfl
@[simp] theorem listenWrite_now (b : Byte) : (s.listenWrite b).now = s.now := rfl
@[simp] theorem listenWrite_pending (b : Byte) : (s.listenWrite b).pending = s.pending := rfl
@[simp] theorem listenWrite_openTx (b : Byte) :
    (s.listenWrite b).openTx = txWrite s.openTx b := rfl
@[simp] theorem listenWrite_finished (b : Byte) : (s.listenWrite b).finished = s.finished := rfl
@[simp] theorem listenWrite_onComplete (b : Byte) : (s.listenWrite b).onComplete = s.onComplete := rfl
@[simp] theorem listenWrite_trace (b : Byte) : (s.listenWrite b).trace = s.trace := rfl
@[simp] theorem listenWrite_dbglog (b : Byte) : (s.listenWrite b).dbglog = s.dbglog := rfl
@[simp] theorem listenWrite_cfg (b : Byte) : (s.listenWrite b).cfg = s.cfg := rfl
@[simp] theorem listenWrite_inbox (b : Byte) : (s.listenWrite b).inbox = s.inbox := rfl
@[simp] theorem listenWrite_order (b : Byte) : (s.listenWrite b).order = s.order := rfl
@[simp] theorem listenWrite_focus (b : Byte) : (s.listenWrite b).focus = s.focus := rfl
@[simp] theorem listenWrite_ab (b : Byte) : (s.listenWrite b).ab = s.ab := rfl
@[simp] theorem listenWrite_nextId (b : Byte) : (s.listenWrite b).nextId = s.nextId := rfl
@[simp] theorem listenWrite_draws (b : Byte) : (s.listenWrite b).draws = s.draws := rfl
@[simp] theorem listenWrite_calls (b : Byte) : (s.listenWrite b).calls = s.calls := rfl
@[simp] theorem listenWrite_answers (b : Byte) : (s.listenWrite b).answers = s.answers := rfl

/-! ## listenStop -/

@[simp] theorem listenStop_aborted : (s.listenStop).aborted = s.aborted := rfl
@[simp] theorem listenStop_devices : (s.listenStop).devices = s.devices := rfl
@[simp] theorem listenStop_now : (s.listenStop).now = s.now := rfl
@[simp] theorem listenStop_pending : (s.listenStop).pending = s.pending := rfl
@[simp] theorem listenStop_openTx :
    (s.listenStop).openTx = none := rfl
@[simp] theorem listenStop_finished :
    (s.listenStop).finished = txFinish s.openTx s.finished := rfl
@[simp] theorem listenStop_onComplete : (s.listenStop).onComplete = s.onComplete := rfl
@[simp] theorem listenStop_trace : (s.listenStop).trace = s.trace := rfl
@[simp] theorem listenStop_dbglog : (s.listenStop).dbglog = s.dbglog := rfl
@[simp] theorem listenStop_cfg : (s.listenStop).cfg = s.cfg := rfl
@[simp] theorem listenStop_inbox : (s.listenStop).inbox = s.inbox := rfl
@[simp] theorem listenStop_order : (s.listenStop).order = s.order := rfl
@[simp] theorem listenStop_focus : (s.listenStop).focus = s.focus := rfl
@[simp] theorem listenStop_ab : (s.listenStop).ab = s.ab := rfl
@[simp] theorem listenStop_nextId : (s.listenStop).nextId = s.nextId := rfl
@[simp] theorem listenStop_draws : (s.listenStop).draws = s.draws := rfl
@[simp] theorem listenStop_calls :
    (s.listenStop).calls = txCall s.openTx s.onComplete s.calls := rfl
@[simp] theorem listenStop_answers : (s.listenStop).answers = s.answers := rfl

/-! ## emitBusIn -/

@[simp] theorem emitBusIn_aborted (w : BusWord) : (s.emitBusIn w).aborted = s.aborted := rfl
@[simp] theorem emitBusIn_devices (w : BusWord) : (s.emitBusIn w).devices = s.devices := rfl
@[simp] theorem emitBusIn_now (w : BusWord) : (s.emitBusIn w).now = s.now := rfl
@[simp] theorem emitBusIn_pending (w : BusWord) : (s.emitBusIn w).pending = s.pending := rfl
@[simp] theorem emitBusIn_openTx (w : BusWord) :
    (s.emitBusIn w).openTx = txReply s.openTx w := rfl
@[simp] theorem emitBusIn_finished (w : BusWord) : (s.emitBusIn w).finished = s.finished := rfl
@[simp] theorem emitBusIn_onComplete (w : BusWord) : (s.emitBusIn w).onComplete = s.onComplete := rfl
@[simp] theorem emitBusIn_trace (w : BusWord) :
    (s.emitBusIn w).trace = s.trace ++ [.busIn w] := rfl
@[simp] theorem emitBusIn_dbglog (w : BusWord) : (s.emitBusIn w).dbglog = s.dbglog := rfl
@[simp] theorem emitBusIn_cfg (w : BusWord) : (s.emitBusIn w).cfg = s.cfg := rfl
@[simp] theorem emitBusIn_inbox (w : BusWord) : (s.emitBusIn w).inbox = s.inbox := rfl
@[simp] theorem emitBusIn_order (w : BusWord) : (s.emitBusIn w).order = s.order := rfl
@[simp] theorem emitBusIn_focus (w : BusWord) : (s.emitBusIn w).focus = s.focus := rfl
@[simp] theorem emitBusIn_ab (w : BusWord) : (s.emitBusIn w).ab = s.ab := rfl
@[simp] theorem emitBusIn_nextId (w : BusWord) : (s.emitBusIn w).nextId = s.nextId := rfl
@[simp] theorem emitBusIn_draws (w : BusWord) : (s.emitBusIn w).draws = s.draws := rfl
@[simp] theorem emitBusIn_calls (w : BusWord) : (s.emitBusIn w).calls = s.calls := rfl
@[simp] theorem emitBusIn_answers (w : BusWord) : (s.emitBusIn w).answers = s.answers := rfl

/-! ## withDevice -/

@[simp] theorem withDevice_aborted (k : Nat) (d : Device) (st : DevState) : (s.withDevice k d st).aborted = s.aborted := rfl
@[simp] theorem withDevice_devices (k : Nat) (d : Device) (st : DevState) :
    (s.withDevice k d st).devices = s.devices.set k { d with st := st } := rfl
@[simp] theorem withDevice_now (k : Nat) (d : Device) (st : DevState) : (s.withDevice k d st).now = s.now := rfl
@[simp] theorem withDevice_pending (k : Nat) (d : Device) (st : DevState) : (s.withDevice k d st).pending = s.pending := rfl
@[simp] theorem withDevice_openTx (k : Nat) (d : Device) (st : DevState) : (s.withDevice k d st).openTx = s.openTx := rfl
@[simp] theorem withDevice_finished (k : Nat) (d : Device) (st : DevState) : (s.withDevice k d st).finished = s.finished := rfl
@[simp] theorem withDevice_onComplete (k : Nat) (d : Device) (st : DevState) : (s.withDevice k d st).onComplete = s.onComplete := rfl
@[simp] theorem withDevice_trace (k : Nat) (d : Device) (st : DevState) : (s.withDevice k d st).trace = s.trace := rfl
@[simp] theorem withDevice_dbglog (k : Nat) (d : Device) (st : DevState) : (s.withDevice k d st).dbglog = s.dbglog := rfl
@[simp] theorem withDevice_cfg (k : Nat) (d : Device) (st : DevState) : (s.withDevice k d st).cfg = s.cfg := rfl
@[simp] theorem withDevice_inbox (k : Nat) (d : Device) (st : DevState) : (s.withDevice k d st).inbox = s.inbox := rfl
@[simp] theorem withDevice_order (k : Nat) (d : Device) (st : DevState) : (s.withDevice k d st).order = s.order := rfl
@[simp] theorem withDevice_focus (k : Nat) (d : Device) (st : DevState) : (s.withDevice k d st).focus = s.focus := rfl
@[simp] theorem withDevice_ab (k : Nat) (d : Device) (st : DevState) : (s.withDevice k d st).ab = s.ab := rfl
@[simp] theorem withDevice_nextId (k : Nat) (d : Device) (st : DevState) : (s.withDevice k d st).nextId = s.nextId := rfl
@[simp] theorem withDevice_draws (k : Nat) (d : Device) (st : DevState) : (s.withDevice k d st).draws = s.draws := rfl
@[simp] theorem withDevice_calls (k : Nat) (d : Device) (st : DevState) : (s.withDevice k d st).calls = s.calls := rfl
@[simp] theorem withDevice_answers (k : Nat) (d : Device) (st : DevState) : (s.withDevice k d st).answers = s.answers := rfl

/-! ## takeAction -/

@[simp] theorem takeAction_aborted (a : PendingAction) : (s.takeAction a).aborted = s.aborted := rfl
@[simp] theorem takeAction_devices (a : PendingAction) : (s.takeAction a).devices = s.devices := rfl
@[simp] theorem takeAction_now (a : PendingAction) : (s.takeAction a).now = s.now := rfl
@[simp] theorem takeAction_pending (a : PendingAction) :
    (s.takeAction a).pending = afterFiring a s.pending := rfl
@[simp] theorem takeAction_openTx (a : PendingAction) : (s.takeAction a).openTx = s.openTx := rfl
@[simp] theorem takeAction_finished (a : PendingAction) : (s.takeAction a).finished = s.finished := rfl
@[simp] theorem takeAction_onComplete (a : PendingAction) : (s.takeAction a).onComplete = s.onComplete := rfl
@[simp] theorem takeAction_trace (a : PendingAction) : (s.takeAction a).trace = s.trace := rfl
@[simp] theorem takeAction_dbglog (a : PendingAction) : (s.takeAction a).dbglog = s.dbglog := rfl
@[simp] theorem takeAction_cfg (a : PendingAction) : (s.takeAction a).cfg = s.cfg := rfl
@[simp] theorem takeAction_inbox (a : PendingAction) : (s.takeAction a).inbox = s.inbox := rfl
@[simp] theorem takeAction_order (a : PendingAction) : (s.takeAction a).order = s.order := rfl
@[simp] theorem takeAction_focus (a : PendingAction) : (s.takeAction a).focus = s.focus := rfl
@[simp] theorem takeAction_ab (a : PendingAction) : (s.takeAction a).ab = s.ab := rfl
@[simp] theorem takeAction_nextId (a : PendingAction) : (s.takeAction a).nextId = s.nextId := rfl
@[simp] theorem takeAction_draws (a : PendingAction) : (s.takeAction a).draws = s.draws := rfl
@[simp] theorem takeAction_calls (a : PendingAction) : (s.takeAction a).calls = s.calls := rfl
@[simp] theorem takeAction_answers (a : PendingAction) : (s.takeAction a).answers = s.answers := rfl

/-! ## listenOut -/

@[simp] theorem listenOut_aborted (m : BusMessage) : (s.listenOut m).aborted = s.aborted := by
  unfold State.listenOut; (repeat' split) <;> simp
@[simp] theorem listenOut_devices (m : BusMessage) : (s.listenOut m).devices = s.devices := by
  unfold State.listenOut; (repeat' split) <;> simp
@[simp] theorem listenOut_now (m : BusMessage) : (s.listenOut m).now = s.now := by
  unfold State.listenOut; (repeat' split) <;> simp
@[simp] theorem listenOut_pending (m : BusMessage) : (s.listenOut m).pending = s.pending := by
  unfold State.listenOut; (repeat' split) <;> simp
@[simp] theorem listenOut_onComplete (m : BusMessage) : (s.listenOut m).onComplete = s.onComplete := by
  unfold State.listenOut; (repeat' split) <;> simp
@[simp] theorem listenOut_trace (m : BusMessage) : (s.listenOut m).trace = s.trace := by
  unfold State.listenOut; (repeat' split) <;> simp
@[simp] theorem listenOut_dbglog (m : BusMessage) : (s.listenOut m).dbglog = s.dbglog := by
  unfold State.listenOut; (repeat' split) <;> simp
@[simp] theorem listenOut_cfg (m : BusMessage) : (s.listenOut m).cfg = s.cfg := by
  unfold State.listenOut; (repeat' split) <;> simp
@[simp] theorem listenOut_inbox (m : BusMessage) : (s.listenOut m).inbox = s.inbox := by
  unfold State.listenOut; (repeat' split) <;> simp
@[simp] theorem listenOut_order (m : BusMessage) : (s.listenOut m).order = s.order := by
  unfold State.listenOut; (repeat' split) <;> simp
@[simp] theorem listenOut_focus (m : BusMessage) : (s.listenOut m).focus = s.focus := by
  unfold State.listenOut; (repeat' split) <;> simp
@[simp] theorem listenOut_ab (m : BusMessage) : (s.listenOut m).ab = s.ab := by
  unfold State.listenOut; (repeat' split) <;> simp
@[simp] theorem listenOut_nextId (m : BusMessage) : (s.listenOut m).nextId = s.nextId := by
  unfold State.listenOut; (repeat' split) <;> simp
@[simp] theorem listenOut_draws (m : BusMessage) : (s.listenOut m).draws = s.draws := by
  unfold State.listenOut; (repeat' split) <;> simp
@[simp] theorem listenOut_answers (m : BusMessage) : (s.listenOut m).answers = s.answers := by
  unfold State.listenOut; (repeat' split) <;> simp

end Sys2Proof.Machine
end

