-- ==== Sys2Proof/Laws/Ops.lean ====
section
/-! SUPPORT. What the shared operations can do: the replies as the listener reads them, effects, and reactions. -/

namespace Sys2Proof.Machine

variable (s : State)

/-! ## The two replies (R65, R263) -/

/-- Bit `i` of a bus word (R61). -/
theorem busWord_getLsbD (data ab flags : Byte) (i : Nat) :
    (busWord data ab flags).getLsbD i =
      if i < 8 then false else if i < 16 then flags.getLsbD (i - 8)
      else if i < 24 then ab.getLsbD (i - 16) else data.getLsbD (i - 24) := by
  unfold busWord
  simp only [BitVec.getLsbD_append]
  by_cases h1 : i < 8
  · simp [h1]
  · by_cases h2 : i < 16
    · rw [if_neg h1, if_neg h1, if_pos h2, if_pos (by omega)]
    · by_cases h3 : i < 24
      · rw [if_neg h1, if_neg h1, if_neg h2, if_pos h3, if_neg (by omega), if_pos (by omega),
          show i - 8 - 8 = i - 16 by omega]
      · rw [if_neg h1, if_neg h1, if_neg h2, if_neg h3, if_neg (by omega), if_neg (by omega),
          show i - 8 - 8 - 8 = i - 24 by omega]

theorem decodeMessage_busWord (data ab flags : Byte) :
    decodeMessage (busWord data ab flags) =
      { address := ab.extractLsb' 1 7, rnw := ab.getLsbD 0, data := data,
        conditions := { start := flags.getLsbD 0, stop := flags.getLsbD 1, write := flags.getLsbD 4,
                        read := flags.getLsbD 5 } } := by
  unfold decodeMessage
  have ha : (busWord data ab flags).extractLsb' 17 7 = ab.extractLsb' 1 7 := by
    ext i hi
    simp only [BitVec.getElem_extractLsb', busWord_getLsbD]
    rw [if_neg (by omega), if_neg (by omega), if_pos (by omega), show 17 + i - 16 = 1 + i by omega]
  have hd : (busWord data ab flags).extractLsb' 24 8 = data := by
    ext i hi
    simp only [BitVec.getElem_extractLsb', busWord_getLsbD]
    rw [if_neg (by omega), if_neg (by omega), if_neg (by omega), show 24 + i - 24 = i by omega,
      BitVec.getLsbD_eq_getElem hi]
  rw [ha, hd]
  simp only [busWord_getLsbD]
  rfl

theorem decodeBusIn_ackWord (ab : Byte) :
    decodeBusIn (ackWord ab) = .ok (.ack 0 (ab.extractLsb' 1 7) (ab.getLsbD 0)) := by
  have hw : (ackWord ab).getLsbD 11 = true := by
    rw [ackWord, busWord_getLsbD]; rfl
  unfold decodeBusIn
  rw [hw, ackWord, decodeMessage_busWord]
  simp [flagAck]

theorem decodeBusIn_ackReadWord (b ab : Byte) :
    decodeBusIn (ackReadWord b ab) = .ok (.ackRead b (ab.extractLsb' 1 7) (ab.getLsbD 0)) := by
  have hw : (ackReadWord b ab).getLsbD 11 = true := by
    rw [ackReadWord, busWord_getLsbD]; rfl
  unfold decodeBusIn
  rw [hw, ackReadWord, decodeMessage_busWord]
  simp [flagAck, flagRead]

@[simp] theorem txReply_ackWord (o : Option Transaction) (ab : Byte) : txReply o (ackWord ab) = o := by
  simp [txReply, decodeBusIn_ackWord]

@[simp] theorem txReply_ackReadWord (o : Option Transaction) (b ab : Byte) :
    txReply o (ackReadWord b ab) = txRead o b := by
  simp [txReply, decodeBusIn_ackReadWord]

/-- The address byte gives the address and the direction back (R61). -/
theorem addressByte_address (a : BusAddress) (rnw : Bool) : (addressByte a rnw).extractLsb' 1 7 = a := by
  have h : ∀ (x : BusAddress) (r : Bool), (addressByte x r).extractLsb' 1 7 = x := by decide
  exact h a rnw

theorem addressByte_rnw (a : BusAddress) (rnw : Bool) : (addressByte a rnw).getLsbD 0 = rnw := by
  have h : ∀ (x : BusAddress) (r : Bool), (addressByte x r).getLsbD 0 = r := by decide
  exact h a rnw

/-! ## Effects -/

/-- What one effect can change: the replies and pins (`trace`, `openTx`), the log, the timed actions, `draws`. -/
theorem perform_cases (k : Nat) (e : Effect) :
    s.perform k e =
      { s with trace := (s.perform k e).trace, openTx := (s.perform k e).openTx, dbglog := (s.perform k e).dbglog,
               pending := (s.perform k e).pending, nextId := (s.perform k e).nextId,
               draws := (s.perform k e).draws } := by
  cases e <;> rfl

/-- What a list of effects can change. -/
theorem performAll_cases (k : Nat) (es : List Effect) :
    es.foldl (State.perform k) s =
      { s with trace := (es.foldl (State.perform k) s).trace, openTx := (es.foldl (State.perform k) s).openTx,
               dbglog := (es.foldl (State.perform k) s).dbglog, pending := (es.foldl (State.perform k) s).pending,
               nextId := (es.foldl (State.perform k) s).nextId, draws := (es.foldl (State.perform k) s).draws } := by
  induction es generalizing s with
  | nil => rfl
  | cons e es ih =>
    rw [List.foldl_cons, ih (s.perform k e)]
    rw [perform_cases s k e]

@[simp] theorem performAll_aborted (k : Nat) (es : List Effect) :
    (es.foldl (State.perform k) s).aborted = s.aborted := by rw [performAll_cases]
@[simp] theorem performAll_devices (k : Nat) (es : List Effect) :
    (es.foldl (State.perform k) s).devices = s.devices := by rw [performAll_cases]
@[simp] theorem performAll_now (k : Nat) (es : List Effect) :
    (es.foldl (State.perform k) s).now = s.now := by rw [performAll_cases]
@[simp] theorem performAll_cfg (k : Nat) (es : List Effect) :
    (es.foldl (State.perform k) s).cfg = s.cfg := by rw [performAll_cases]
@[simp] theorem performAll_inbox (k : Nat) (es : List Effect) :
    (es.foldl (State.perform k) s).inbox = s.inbox := by rw [performAll_cases]
@[simp] theorem performAll_order (k : Nat) (es : List Effect) :
    (es.foldl (State.perform k) s).order = s.order := by rw [performAll_cases]
@[simp] theorem performAll_focus (k : Nat) (es : List Effect) :
    (es.foldl (State.perform k) s).focus = s.focus := by rw [performAll_cases]
@[simp] theorem performAll_ab (k : Nat) (es : List Effect) :
    (es.foldl (State.perform k) s).ab = s.ab := by rw [performAll_cases]
@[simp] theorem performAll_finished (k : Nat) (es : List Effect) :
    (es.foldl (State.perform k) s).finished = s.finished := by rw [performAll_cases]
@[simp] theorem performAll_onComplete (k : Nat) (es : List Effect) :
    (es.foldl (State.perform k) s).onComplete = s.onComplete := by rw [performAll_cases]
@[simp] theorem performAll_calls (k : Nat) (es : List Effect) :
    (es.foldl (State.perform k) s).calls = s.calls := by rw [performAll_cases]
@[simp] theorem performAll_answers (k : Nat) (es : List Effect) :
    (es.foldl (State.perform k) s).answers = s.answers := by rw [performAll_cases]

/-! ## Reactions -/

/-- A reaction either leaves the run unaborted, with only device `k` replaced, or aborts and writes nothing else
(R283). -/
theorem react_done (k : Nat) (dev : Device) (d : DevState) (es : List Effect) :
    s.react k dev (.done d es) = es.foldl (State.perform k) (s.setDevice k { dev with st := d }) := rfl

theorem react_raise (k : Nat) (dev : Device) (c : Cause) (info : FaultInfo) :
    s.react k dev (.raise c info) = { s with aborted := some { cause := c, device := k, info := info } } := rfl

@[simp] theorem react_cfg (k : Nat) (dev : Device) (r : Reaction DevState) : (s.react k dev r).cfg = s.cfg := by
  cases r <;> simp [State.react]
@[simp] theorem react_now (k : Nat) (dev : Device) (r : Reaction DevState) : (s.react k dev r).now = s.now := by
  cases r <;> simp [State.react]
@[simp] theorem react_inbox (k : Nat) (dev : Device) (r : Reaction DevState) :
    (s.react k dev r).inbox = s.inbox := by
  cases r <;> simp [State.react]
@[simp] theorem react_order (k : Nat) (dev : Device) (r : Reaction DevState) :
    (s.react k dev r).order = s.order := by
  cases r <;> simp [State.react]
@[simp] theorem react_focus (k : Nat) (dev : Device) (r : Reaction DevState) :
    (s.react k dev r).focus = s.focus := by
  cases r <;> simp [State.react]
@[simp] theorem react_ab (k : Nat) (dev : Device) (r : Reaction DevState) : (s.react k dev r).ab = s.ab := by
  cases r <;> simp [State.react]
@[simp] theorem react_finished (k : Nat) (dev : Device) (r : Reaction DevState) :
    (s.react k dev r).finished = s.finished := by
  cases r <;> simp [State.react]
@[simp] theorem react_onComplete (k : Nat) (dev : Device) (r : Reaction DevState) :
    (s.react k dev r).onComplete = s.onComplete := by
  cases r <;> simp [State.react]
@[simp] theorem react_calls (k : Nat) (dev : Device) (r : Reaction DevState) :
    (s.react k dev r).calls = s.calls := by
  cases r <;> simp [State.react]
@[simp] theorem react_answers (k : Nat) (dev : Device) (r : Reaction DevState) :
    (s.react k dev r).answers = s.answers := by
  cases r <;> simp [State.react]

/-- A reaction never touches another device. -/
theorem react_devices_other (k j : Nat) (dev : Device) (r : Reaction DevState) (h : j ≠ k) :
    (s.react k dev r).devices[j]? = s.devices[j]? := by
  cases r with
  | done d es => simp [State.react, Ne.symm h]
  | raise c info => simp [State.react]

@[simp] theorem react_length (k : Nat) (dev : Device) (r : Reaction DevState) :
    (s.react k dev r).devices.length = s.devices.length := by
  cases r <;> simp [State.react]

/-- Putting the same device back changes nothing. -/
theorem setDevice_same (k : Nat) (dev : Device) (h : s.devices[k]? = some dev) : s.setDevice k dev = s := by
  unfold State.setDevice
  have : s.devices.set k dev = s.devices := by
    apply List.ext_getElem?
    intro i
    by_cases hi : i = k
    · subst hi
      have := List.getElem?_eq_some_iff.mp h
      obtain ⟨hk, he⟩ := this
      simp [hk, he]
    · simp [Ne.symm hi]
  rw [this]

/-- A device that is there and live. -/
theorem liveDevice?_eq_some (k : Nat) (dev : Device) :
    s.liveDevice? k = some dev ↔ s.devices[k]? = some dev ∧ dev.live = true := by
  unfold State.liveDevice?
  cases h : s.devices[k]? with
  | none => simp
  | some d =>
    by_cases hl : d.live <;> simp [hl]
    · rintro rfl; exact hl
    · rintro rfl; simpa using hl

end Sys2Proof.Machine
end

