-- ==== Sys2Proof/Laws/Deliver.lean ====
section
/-! SUPPORT. What the delivery of one notification can do (R54, R91), whatever the order of the subscribers. -/

namespace Sys2Proof.Machine

variable (s : State)

/-! ## The order (log 8) -/

theorem deliveryOrder_nodup (n : Nat) (order : List Nat) : (deliveryOrder n order).Nodup := by
  unfold deliveryOrder
  rw [List.nodup_append]
  refine ⟨List.nodup_dedup _, List.Nodup.filter _ List.nodup_range, ?_⟩
  intro a ha b hb hab
  subst hab
  simp only [List.mem_dedup, List.mem_filter] at ha hb
  have := ha.1
  simp [this] at hb

theorem mem_deliveryOrder (n : Nat) (order : List Nat) (k : Nat) : k ∈ deliveryOrder n order ↔ k ≤ n := by
  unfold deliveryOrder
  simp only [List.mem_append, List.mem_dedup, List.mem_filter, List.mem_range]
  constructor
  · rintro (⟨_, h⟩ | ⟨h, _⟩)
    · simpa using h
    · omega
  · intro h
    by_cases hk : k ∈ order
    · left; simp [hk, h]
    · right; simp [hk]; omega

/-! ## One subscriber -/

theorem subscriber_aborted (m : BusMessage) (k : Nat) (r : FaultRecord) (h : s.aborted = some r) :
    s.subscriber m k = s := by
  unfold State.subscriber; rw [h]

theorem subscriber_listener (m : BusMessage) (h : s.aborted = none) :
    s.subscriber m s.devices.length = s.listenOut m := by
  unfold State.subscriber; rw [h]; simp

theorem subscriber_device (m : BusMessage) (k : Nat) (h : s.aborted = none) (hk : k ≠ s.devices.length) :
    s.subscriber m k = s.adapter m k := by
  unfold State.subscriber; rw [h]; simp [hk]

/-- A subscriber's device is the only one it can touch. -/
theorem subscriber_devices_other (m : BusMessage) (k j : Nat) (h : j ≠ k) :
    (s.subscriber m k).devices[j]? = s.devices[j]? := by
  unfold State.subscriber
  split
  · rfl
  · split
    · simp
    · unfold State.adapter
      split
      · exact react_devices_other _ _ _ _ _ h
      · rfl

@[simp] theorem subscriber_length (m : BusMessage) (k : Nat) :
    (s.subscriber m k).devices.length = s.devices.length := by
  unfold State.subscriber
  split
  · rfl
  · split
    · simp
    · unfold State.adapter
      split
      · simp
      · rfl

@[simp] theorem subscriber_cfg (m : BusMessage) (k : Nat) : (s.subscriber m k).cfg = s.cfg := by
  unfold State.subscriber
  split
  · rfl
  · split
    · simp
    · unfold State.adapter
      split
      · simp
      · rfl

/-! ## A fold over subscribers of which only two matter -/

/-- Subscriber `j` does nothing at an unaborted state that has device `j` of `s`. -/
def Idles (m : BusMessage) (j : Nat) : Prop :=
  ∀ t : State, t.aborted = none → t.devices.length = s.devices.length → t.devices[j]? = s.devices[j]? →
    t.subscriber m j = t

theorem foldl_filter_idle (m : BusMessage) (k : Nat) (ks : List Nat)
    (hidle : ∀ j ∈ ks, j ≠ k → j ≠ s.devices.length → Idles s m j) (t : State)
    (hlen : t.devices.length = s.devices.length)
    (hdev : ∀ j, j ≠ k → t.devices[j]? = s.devices[j]?) :
    ks.foldl (State.subscriber m) t =
      (ks.filter (fun j => decide (j = k ∨ j = s.devices.length))).foldl (State.subscriber m) t := by
  induction ks generalizing t with
  | nil => rfl
  | cons j ks ih =>
    have hrest : ∀ i ∈ ks, i ≠ k → i ≠ s.devices.length → Idles s m i :=
      fun i hi => hidle i (List.mem_cons_of_mem _ hi)
    by_cases hj : j = k ∨ j = s.devices.length
    · rw [List.filter_cons_of_pos (by simpa using hj), List.foldl_cons, List.foldl_cons]
      apply ih hrest
      · simp [hlen]
      · intro i hi
        rcases hj with rfl | rfl
        · rw [subscriber_devices_other _ _ _ _ hi, hdev i hi]
        · by_cases hin : i = s.devices.length
          · subst hin
            rw [List.getElem?_eq_none (by simp [hlen]), List.getElem?_eq_none (by simp)]
          · rw [subscriber_devices_other _ _ _ _ hin, hdev i hi]
    · rw [List.filter_cons_of_neg (by simpa using hj), List.foldl_cons]
      have hj' : j ≠ k ∧ j ≠ s.devices.length := by
        constructor
        · exact fun h => hj (Or.inl h)
        · exact fun h => hj (Or.inr h)
      have hstep : t.subscriber m j = t := by
        cases hab : t.aborted with
        | some r => exact subscriber_aborted t m j r hab
        | none =>
          exact hidle j List.mem_cons_self hj'.1 hj'.2 t hab hlen (hdev j hj'.1)
      rw [hstep]
      exact ih hrest t hlen hdev

/-- A list with no repeats, filtered to two of its members, is the two in one of the two orders. -/
theorem filter_two (ks : List Nat) (hnd : ks.Nodup) (a b : Nat) (hab : a ≠ b) (ha : a ∈ ks) (hb : b ∈ ks) :
    ks.filter (fun j => decide (j = a ∨ j = b)) = [a, b] ∨
    ks.filter (fun j => decide (j = a ∨ j = b)) = [b, a] := by
  have hp : (ks.filter (fun j => decide (j = a ∨ j = b))).Perm [a, b] := by
    rw [List.perm_ext_iff_of_nodup (hnd.filter _) (by simp [hab])]
    intro x
    simp only [List.mem_filter, decide_eq_true_eq, List.mem_cons, List.not_mem_nil, or_false]
    constructor
    · exact fun h => h.2
    · rintro (rfl | rfl)
      · exact ⟨ha, Or.inl rfl⟩
      · exact ⟨hb, Or.inr rfl⟩
  exact List.perm_pair.mp hp

/-- An unmatched message without START leaves a device as it was (R92). -/
theorem adapter_unmatched (m : BusMessage) (k : Nat) (hst : m.conditions.start = false)
    (h : ∀ d, s.liveDevice? k = some d → d.accepts m.address = false) : s.adapter m k = s := by
  unfold State.adapter
  split
  · rename_i d hd
    have hacc := h d hd
    have hd' := (liveDevice?_eq_some s k d).mp hd
    simp only [Device.respond, hacc, DevState.unmatched, hst, State.react]
    exact setDevice_same s k d hd'.1
  · rfl

/-- The message without START reaches device `k` and the listener only, in one of the two orders. -/
theorem deliver_single (m : BusMessage) (k : Nat) (hk : k < s.devices.length) (hab : s.aborted = none)
    (hst : m.conditions.start = false) (hother : noOtherMatch s k m.address) :
    s.deliver m = (({ s with ab := m.ab } : State).adapter m k).subscriber m s.devices.length ∨
    s.deliver m = (({ s with ab := m.ab } : State).listenOut m).adapter m k := by
  unfold State.deliver
  have hfold := foldl_filter_idle s m k (deliveryOrder s.devices.length s.order) (by
    intro j hj hjk hjn t hta htl htd
    rw [subscriber_device t m j hta (by rw [htl]; exact hjn)]
    apply adapter_unmatched t m j hst
    intro d hd
    rw [liveDevice?_eq_some, htd] at hd
    obtain ⟨hlt, he⟩ := List.getElem?_eq_some_iff.mp hd.1
    have := hother j hlt hjk (by rw [he]; exact hd.2)
    rwa [he] at this) { s with ab := m.ab } rfl (fun _ _ => rfl)
  rw [hfold]
  have hnk : k ≠ s.devices.length := by omega
  rcases filter_two _ (deliveryOrder_nodup s.devices.length s.order) k s.devices.length hnk
    ((mem_deliveryOrder _ _ _).mpr (by omega)) ((mem_deliveryOrder _ _ _).mpr (le_refl _)) with h | h
  · left
    rw [h]
    simp only [List.foldl_cons, List.foldl_nil]
    rw [subscriber_device ({ s with ab := m.ab } : State) m k hab hnk]
  · right
    rw [h]
    simp only [List.foldl_cons, List.foldl_nil]
    have h1 := subscriber_listener ({ s with ab := m.ab } : State) m hab
    rw [show ({ s with ab := m.ab } : State).devices.length = s.devices.length from rfl] at h1
    rw [h1, subscriber_device (({ s with ab := m.ab } : State).listenOut m) m k (by simpa using hab)
      (by simpa using hnk)]

/-- The message without START that no live device accepts reaches the listener only. -/
theorem deliver_unmatched (m : BusMessage) (hab : s.aborted = none) (hst : m.conditions.start = false)
    (hnone : ∀ j, ∀ h : j < s.devices.length, (s.devices[j]).live = true → (s.devices[j]).accepts m.address = false) :
    s.deliver m = ({ s with ab := m.ab } : State).listenOut m := by
  unfold State.deliver
  have hfold := foldl_filter_idle s m s.devices.length (deliveryOrder s.devices.length s.order) (by
    intro j hj hjk hjn t hta htl htd
    rw [subscriber_device t m j hta (by rw [htl]; exact hjn)]
    apply adapter_unmatched t m j hst
    intro d hd
    rw [liveDevice?_eq_some, htd] at hd
    obtain ⟨hlt, he⟩ := List.getElem?_eq_some_iff.mp hd.1
    have := hnone j hlt (by rw [he]; exact hd.2)
    rwa [he] at this) { s with ab := m.ab } rfl (fun _ _ => rfl)
  rw [hfold]
  have hone : (deliveryOrder s.devices.length s.order).filter
      (fun j => decide (j = s.devices.length ∨ j = s.devices.length)) = [s.devices.length] := by
    apply List.perm_singleton.mp
    rw [List.perm_ext_iff_of_nodup ((deliveryOrder_nodup _ _).filter _) (by simp)]
    intro x
    simp only [List.mem_filter, mem_deliveryOrder, decide_eq_true_eq, or_self, List.mem_singleton]
    omega
  rw [hone]
  simp only [List.foldl_cons, List.foldl_nil]
  exact subscriber_listener ({ s with ab := m.ab } : State) m hab

/-! ## A message every live device takes without a fault, with an ACK or no reply -/

/-- Device `d` after such a message. -/
def Device.took (g : Device → DevState) (d : Device) : Device := if d.live then { d with st := g d } else d

/-- Every live device answers the message with state `g d`, and with an ACK exactly if `p d`. -/
def Answers (m : BusMessage) (g : Device → DevState) (p : Device → Bool) : Prop :=
  ∀ d ∈ s.devices, d.live = true → ∀ env : Env, env.cfg = s.cfg →
    d.respond env m = .done (g d) (if p d then [ackOnly m.ab] else [])

/-- The state when the subscribers in `ks` have run. -/
def tookSome (m : BusMessage) (g : Device → DevState) (p : Device → Bool) (ks : List Nat) : State :=
  let l := if s.devices.length ∈ ks then ({ s with ab := m.ab } : State).listenOut m else { s with ab := m.ab }
  { l with
    devices := s.devices.mapIdx (fun i d => if i ∈ ks then d.took g else d)
    trace := s.trace ++ List.replicate
      ((ks.filterMap (fun i => s.devices[i]?)).countP (fun d => d.live && p d)) (.busIn (ackWord m.ab)) }

theorem tookSome_subscriber (m : BusMessage) (g : Device → DevState) (p : Device → Bool)
    (hab : s.aborted = none) (hans : Answers s m g p) (ks : List Nat) (k : Nat) (hk : k ≤ s.devices.length)
    (hnd : k ∉ ks) : (tookSome s m g p ks).subscriber m k = tookSome s m g p (ks ++ [k]) := by
  have habt : (tookSome s m g p ks).aborted = none := by
    unfold tookSome
    dsimp only
    split
    · simpa using hab
    · exact hab
  have hcfg : (tookSome s m g p ks).cfg = s.cfg := by
    unfold tookSome
    dsimp only
    split
    · simp
    · rfl
  have hlen : (tookSome s m g p ks).devices.length = s.devices.length := by
    unfold tookSome; simp
  by_cases hkn : k = s.devices.length
  · have h1 := subscriber_listener (tookSome s m g p ks) m habt
    rw [hlen, ← hkn] at h1
    rw [h1]
    unfold tookSome
    have hdevs : s.devices.mapIdx (fun i d => if i ∈ ks ++ [k] then d.took g else d) =
        s.devices.mapIdx (fun i d => if i ∈ ks then d.took g else d) := by
      apply List.mapIdx_eq_mapIdx_iff.mpr
      intro i hi
      have : i ≠ k := by omega
      simp [this]
    have hcount : (ks ++ [k]).filterMap (fun i => s.devices[i]?) = ks.filterMap (fun i => s.devices[i]?) := by
      simp [List.filterMap_append, hkn]
    have hin : s.devices.length ∈ ks ++ [k] := by simp [hkn]
    have hnin : s.devices.length ∉ ks := by rw [← hkn]; exact hnd
    rw [hdevs, hcount]
    simp only [if_pos hin, if_neg hnin]
    unfold State.listenOut State.listenStart State.listenStop State.listenWrite
    split
    · rfl
    · split
      · rfl
      · split <;> rfl
  · have hlt : k < s.devices.length := by omega
    rw [subscriber_device _ m k habt (by rw [hlen]; exact hkn)]
    have hgetk : (tookSome s m g p ks).devices[k]? = some s.devices[k] := by
      unfold tookSome
      simp [hlt, hnd]
    have hmem : s.devices[k] ∈ s.devices := List.getElem_mem hlt
    have hdevs : s.devices.mapIdx (fun i d => if i ∈ ks ++ [k] then d.took g else d) =
        (s.devices.mapIdx (fun i d => if i ∈ ks then d.took g else d)).set k (s.devices[k].took g) := by
      apply List.ext_getElem?
      intro i
      rw [List.getElem?_set]
      by_cases hik : k = i
      · subst hik; simp [hlt]
      · simp [hik, Ne.symm hik]
    have hiff : (s.devices.length ∈ ks ++ [k]) = (s.devices.length ∈ ks) := by
      simp [Ne.symm hkn]
    have hcount : ((ks ++ [k]).filterMap (fun i => s.devices[i]?)).countP (fun d => d.live && p d) =
        (ks.filterMap (fun i => s.devices[i]?)).countP (fun d => d.live && p d) +
          (if s.devices[k].live && p s.devices[k] then 1 else 0) := by
      simp [List.filterMap_append, hlt, List.countP_append, List.countP_cons]
    unfold State.adapter
    by_cases hlive : s.devices[k].live = true
    · have hld : (tookSome s m g p ks).liveDevice? k = some s.devices[k] := by
        rw [liveDevice?_eq_some]; exact ⟨hgetk, hlive⟩
      rw [hld]
      dsimp only
      rw [hans _ hmem hlive _ (by simpa [State.env] using hcfg), react_done]
      have htook : s.devices[k].took g = { s.devices[k] with st := g s.devices[k] } := by
        unfold Device.took; rw [if_pos hlive]
      rw [← htook]
      unfold tookSome
      rw [hdevs, hcount]
      simp only [hiff]
      cases hp : p s.devices[k] with
      | false =>
        simp only [hlive, Bool.and_false, Bool.false_eq_true, if_false, List.foldl_nil, Nat.add_zero]
        rfl
      | true =>
        simp only [hlive, Bool.and_true, if_true, List.foldl_cons, List.foldl_nil, ackOnly, State.perform,
          State.emitBusIn, txReply_ackWord, List.replicate_succ', ← List.append_assoc]
        rfl
    · have hld : (tookSome s m g p ks).liveDevice? k = none := by
        unfold State.liveDevice?
        rw [hgetk]; simp [hlive]
      rw [hld]
      dsimp only
      have htook : s.devices[k].took g = s.devices[k] := by
        unfold Device.took; rw [if_neg hlive]
      unfold tookSome
      rw [hdevs, hcount, htook]
      have hset : (s.devices.mapIdx (fun i d => if i ∈ ks then d.took g else d)).set k s.devices[k] =
          s.devices.mapIdx (fun i d => if i ∈ ks then d.took g else d) := by
        apply List.ext_getElem?
        intro i
        rw [List.getElem?_set]
        by_cases hik : k = i
        · subst hik; simp [hlt, hnd]
        · simp [hik]
      rw [hset]
      simp [hiff, hlive]

theorem foldl_tookSome (m : BusMessage) (g : Device → DevState) (p : Device → Bool)
    (hab : s.aborted = none) (hans : Answers s m g p) (ks : List Nat) (hle : ∀ k ∈ ks, k ≤ s.devices.length)
    (pre : List Nat) (hnd : (pre ++ ks).Nodup) :
    ks.foldl (State.subscriber m) (tookSome s m g p pre) = tookSome s m g p (pre ++ ks) := by
  induction ks generalizing pre with
  | nil => simp
  | cons k ks ih =>
    rw [List.foldl_cons, tookSome_subscriber s m g p hab hans pre k (hle k List.mem_cons_self)]
    · rw [ih (fun i hi => hle i (List.mem_cons_of_mem _ hi)) (pre ++ [k]) (by simpa using hnd)]
      simp
    · have := List.nodup_append.mp hnd
      intro hmem
      exact this.2.2 k hmem k List.mem_cons_self rfl

theorem filterMap_range_getElem? {α : Type} (l : List α) :
    (List.range l.length).filterMap (fun i => l[i]?) = l := by
  induction l with
  | nil => rfl
  | cons a l ih =>
    rw [List.length_cons, List.range_succ_eq_map, List.filterMap_cons, List.filterMap_map]
    simpa [Function.comp_def] using ih

/-- The delivery of a message every live device takes: each live device changes by `g`, each that acknowledges
adds one ACK to the trace, the listener sees the message; the order does not matter. -/
theorem deliver_answers (m : BusMessage) (g : Device → DevState) (p : Device → Bool)
    (hab : s.aborted = none) (hans : Answers s m g p) :
    s.deliver m =
      { ({ s with ab := m.ab } : State).listenOut m with
        devices := s.devices.map (Device.took g)
        trace := s.trace ++ List.replicate (s.devices.countP (fun d => d.live && p d)) (.busIn (ackWord m.ab)) } := by
  unfold State.deliver
  have hid : s.devices.mapIdx (fun _ d => d) = s.devices := by
    apply List.ext_getElem?; simp
  have h0 : tookSome s m g p [] = { s with ab := m.ab } := by
    unfold tookSome; simp [hid]
  have hall := foldl_tookSome s m g p hab hans (deliveryOrder s.devices.length s.order)
    (fun k hk => (mem_deliveryOrder _ _ _).mp hk) [] (by simpa using deliveryOrder_nodup _ _)
  rw [h0, List.nil_append] at hall
  rw [hall]
  unfold tookSome
  have hin : s.devices.length ∈ deliveryOrder s.devices.length s.order :=
    (mem_deliveryOrder _ _ _).mpr (le_refl _)
  have hdevs : s.devices.mapIdx (fun i d => if i ∈ deliveryOrder s.devices.length s.order then d.took g else d) =
      s.devices.map (Device.took g) := by
    apply List.ext_getElem?
    intro i
    by_cases hi : i < s.devices.length
    · simp [hi, mem_deliveryOrder, Nat.le_of_lt hi]
    · simp [hi]
  have hperm : (deliveryOrder s.devices.length s.order).Perm (List.range (s.devices.length + 1)) := by
    rw [List.perm_ext_iff_of_nodup (deliveryOrder_nodup _ _) List.nodup_range]
    intro x
    rw [mem_deliveryOrder, List.mem_range]; omega
  have hcount : ((deliveryOrder s.devices.length s.order).filterMap (fun i => s.devices[i]?)).countP
      (fun d => d.live && p d) = s.devices.countP (fun d => d.live && p d) := by
    rw [(hperm.filterMap _).countP_eq]
    congr 1
    rw [List.range_succ, List.filterMap_append]
    simp only [List.filterMap_cons, List.filterMap_nil, List.getElem?_length, List.append_nil]
    exact filterMap_range_getElem? _
  rw [hdevs, hcount]
  simp only [if_pos hin]

/-! ## A data message at the one device it addresses -/

theorem adapter_react (s : State) (k : Nat) (dev : Device) (m : BusMessage) (h : liveAt s k dev) :
    s.adapter m k = s.react k dev (dev.respond s.env m) := by
  unfold State.adapter; rw [h]

/-- A WRITE the addressed device takes, with an ACK (R94): the state after it, whatever the order. -/
theorem deliver_write_acked (s : State) (k : Nat) (dev : Device) (v : Byte) (a : BusAddress) (rnw : Bool)
    (st : DevState) (h : addressed s k dev a)
    (hr : dev.respond s.env (writeMessage v a rnw) = .done st [ackOnly (addressByte a rnw)]) :
    s.deliver (writeMessage v a rnw) = (s.wrote k dev st v (addressByte a rnw)) := by
  obtain ⟨hab, hl, hacc, hno⟩ := h
  have hk := (liveDevice?_eq_some s k dev).mp hl
  have hlt : k < s.devices.length := (List.getElem?_eq_some_iff.mp hk.1).1
  have hm : (writeMessage v a rnw).ab = addressByte a rnw := rfl
  have e1 : ∀ t : State, t.devices = s.devices → t.env = s.env → t.adapter (writeMessage v a rnw) k =
      t.react k dev (.done st [ackOnly (addressByte a rnw)]) := by
    intro t ht he
    rw [adapter_react t k dev _ (by unfold liveAt State.liveDevice? at *; rw [ht]; exact hl), he, hr]
  rcases deliver_single s (writeMessage v a rnw) k hlt hab rfl hno with h | h <;> rw [h]
  · rw [e1 { s with ab := (writeMessage v a rnw).ab } rfl rfl]
    simp [State.react, State.perform, ackOnly, State.subscriber, State.setDevice, State.emitBusIn, hab, State.listenOut, writeMessage, State.listenWrite, txWrite, State.wrote, BusMessage.ab, ackEvent, ackWord, busWord, flagAck]
    exact congrArg _ (txReply_ackWord _ (addressByte a rnw))
  · rw [e1 _ (by simp) (by simp [State.env])]
    simp [State.react, State.perform, ackOnly, State.setDevice, State.emitBusIn, hab, State.listenOut, writeMessage, State.listenWrite, txWrite, State.wrote, BusMessage.ab, ackEvent, ackWord, busWord, flagAck]
    exact txReply_ackWord _ _

/-- A WRITE the addressed device turns into an abort (R283). -/
theorem deliver_write_raised (s : State) (k : Nat) (dev : Device) (v : Byte) (a : BusAddress) (rnw : Bool)
    (c : Cause) (info : FaultInfo) (h : addressed s k dev a)
    (hr : dev.respond s.env (writeMessage v a rnw) = .raise c info) :
    abortedAt s (s.deliver (writeMessage v a rnw)) k c info (addressByte a rnw) (heardByte s.openTx v) := by
  obtain ⟨hab, hl, hacc, hno⟩ := h
  have hk := (liveDevice?_eq_some s k dev).mp hl
  have hlt : k < s.devices.length := (List.getElem?_eq_some_iff.mp hk.1).1
  have e1 : ∀ t : State, t.devices = s.devices → t.env = s.env → t.adapter (writeMessage v a rnw) k =
      t.react k dev (.raise c info) := by
    intro t ht he
    rw [adapter_react t k dev _ (by unfold liveAt State.liveDevice? at *; rw [ht]; exact hl), he, hr]
  rcases deliver_single s (writeMessage v a rnw) k hlt hab rfl hno with h | h <;> rw [h]
  · left
    rw [e1 { s with ab := (writeMessage v a rnw).ab } rfl rfl]
    simp [State.react, State.raiseFatal, State.subscriber, BusMessage.ab, writeMessage]
  · right
    rw [e1 _ (by simp) (by simp [State.env])]
    simp [State.react, State.raiseFatal, State.listenOut, writeMessage, State.listenWrite, txWrite, BusMessage.ab, heardByte]

/-- A READ the addressed device answers (R95). -/
theorem deliver_read_answered (s : State) (k : Nat) (dev : Device) (v : Byte) (a : BusAddress) (rnw : Bool)
    (st : DevState) (b : Byte) (h : addressed s k dev a)
    (hr : dev.respond s.env (readMessage v a rnw) = .done st [ackWithByte b (addressByte a rnw)]) :
    s.deliver (readMessage v a rnw) = (s.answered k dev st b (addressByte a rnw)) := by
  obtain ⟨hab, hl, hacc, hno⟩ := h
  have hk := (liveDevice?_eq_some s k dev).mp hl
  have hlt : k < s.devices.length := (List.getElem?_eq_some_iff.mp hk.1).1
  have e1 : ∀ t : State, t.devices = s.devices → t.env = s.env → t.adapter (readMessage v a rnw) k =
      t.react k dev (.done st [ackWithByte b (addressByte a rnw)]) := by
    intro t ht he
    rw [adapter_react t k dev _ (by unfold liveAt State.liveDevice? at *; rw [ht]; exact hl), he, hr]
  rcases deliver_single s (readMessage v a rnw) k hlt hab rfl hno with h | h <;> rw [h]
  · rw [e1 { s with ab := (readMessage v a rnw).ab } rfl rfl]
    simp [State.react, State.perform, ackWithByte, State.subscriber, State.setDevice, State.emitBusIn, hab, State.listenOut, readMessage, State.answered, BusMessage.ab, ackReadEvent, ackReadWord, busWord, flagAck, flagRead]
    exact txReply_ackReadWord _ _ _
  · rw [e1 _ (by simp) (by simp [State.env])]
    simp [State.react, State.perform, ackWithByte, State.setDevice, State.emitBusIn, hab, State.listenOut, readMessage, State.answered, BusMessage.ab, ackReadEvent, ackReadWord, busWord, flagAck, flagRead]
    exact txReply_ackReadWord _ _ _

/-- A READ the addressed device turns into an abort (R283). -/
theorem deliver_read_raised (s : State) (k : Nat) (dev : Device) (v : Byte) (a : BusAddress) (rnw : Bool)
    (c : Cause) (info : FaultInfo) (h : addressed s k dev a)
    (hr : dev.respond s.env (readMessage v a rnw) = .raise c info) :
    abortedAt s (s.deliver (readMessage v a rnw)) k c info (addressByte a rnw) s.openTx := by
  obtain ⟨hab, hl, hacc, hno⟩ := h
  have hk := (liveDevice?_eq_some s k dev).mp hl
  have hlt : k < s.devices.length := (List.getElem?_eq_some_iff.mp hk.1).1
  have e1 : ∀ t : State, t.devices = s.devices → t.env = s.env → t.adapter (readMessage v a rnw) k =
      t.react k dev (.raise c info) := by
    intro t ht he
    rw [adapter_react t k dev _ (by unfold liveAt State.liveDevice? at *; rw [ht]; exact hl), he, hr]
  rcases deliver_single s (readMessage v a rnw) k hlt hab rfl hno with h | h <;> rw [h]
  · left
    rw [e1 { s with ab := (readMessage v a rnw).ab } rfl rfl]
    simp [State.react, State.raiseFatal, State.subscriber, BusMessage.ab, readMessage]
  · left
    rw [e1 _ (by simp) (by simp [State.env])]
    simp [State.react, State.raiseFatal, State.listenOut, readMessage, BusMessage.ab]

end Sys2Proof.Machine
end

