-- ==== Sys2Proof/Laws/Memory.lean ====
section
/-! SUPPORT. The finite maps and the byte memory: the canonical form is kept, and reading after writing. -/

namespace Sys2Proof.Machine

/-! ## Maps with rising keys -/

theorem rising_cons {α : Type} (k : Nat) (v : α) (l : List (Nat × α)) :
    Rising ((k, v) :: l) ↔ (∀ e ∈ l, k < e.1) ∧ Rising l := by
  unfold Rising
  rw [List.map_cons, List.pairwise_cons]
  simp

theorem mapInsert_mem {α : Type} (l : List (Nat × α)) (a : Nat) (v : α) (e : Nat × α)
    (h : e ∈ mapInsert l a v) : e = (a, v) ∨ e ∈ l := by
  induction l with
  | nil => simpa [mapInsert] using h
  | cons hd tl ih =>
    obtain ⟨k, w⟩ := hd
    unfold mapInsert at h
    split at h
    · simpa using h
    · split at h
      · rcases List.mem_cons.mp h with h | h
        · exact Or.inl h
        · exact Or.inr (List.mem_cons_of_mem _ h)
      · rcases List.mem_cons.mp h with h | h
        · exact Or.inr (by rw [h]; exact List.mem_cons_self)
        · rcases ih h with h | h
          · exact Or.inl h
          · exact Or.inr (List.mem_cons_of_mem _ h)

theorem mapInsert_rising {α : Type} (l : List (Nat × α)) (a : Nat) (v : α) (h : Rising l) :
    Rising (mapInsert l a v) := by
  induction l with
  | nil => simp [mapInsert, Rising]
  | cons hd tl ih =>
    obtain ⟨k, w⟩ := hd
    obtain ⟨hk, ht⟩ := (rising_cons k w tl).mp h
    unfold mapInsert
    split
    · rename_i hak
      rw [rising_cons]
      refine ⟨?_, h⟩
      intro e he
      rcases List.mem_cons.mp he with rfl | he
      · exact hak
      · exact Nat.lt_trans hak (hk e he)
    · split
      · rename_i hak
        subst hak
        rw [rising_cons]
        exact ⟨hk, ht⟩
      · rename_i hlt hne
        rw [rising_cons]
        refine ⟨?_, ih ht⟩
        intro e he
        rcases mapInsert_mem tl a v e he with rfl | he
        · show k < a
          omega
        · exact hk e he

theorem mapErase_mem {α : Type} (l : List (Nat × α)) (a : Nat) (e : Nat × α) :
    e ∈ mapErase l a ↔ e ∈ l ∧ e.1 ≠ a := by
  simp [mapErase]

theorem mapErase_rising {α : Type} (l : List (Nat × α)) (a : Nat) (h : Rising l) : Rising (mapErase l a) := by
  unfold Rising mapErase at *
  rw [List.pairwise_map] at *
  exact h.filter _

theorem mapFind?_eq_none {α : Type} (l : List (Nat × α)) (a : Nat) : mapFind? l a = none ↔ ∀ e ∈ l, e.1 ≠ a := by
  induction l with
  | nil => simp [mapFind?]
  | cons hd tl ih =>
    obtain ⟨k, w⟩ := hd
    unfold mapFind?
    by_cases hk : k = a
    · simp [hk]
    · simp only [if_neg hk, ih, List.forall_mem_cons]
      exact ⟨fun h => ⟨hk, h⟩, fun h => h.2⟩

theorem mapFind?_mem {α : Type} (l : List (Nat × α)) (a : Nat) (v : α) (h : mapFind? l a = some v) : (a, v) ∈ l := by
  induction l with
  | nil => simp [mapFind?] at h
  | cons hd tl ih =>
    obtain ⟨k, w⟩ := hd
    unfold mapFind? at h
    split at h
    · rename_i hk
      cases h
      subst hk
      exact List.mem_cons_self
    · exact List.mem_cons_of_mem _ (ih h)

/-- Reading the key just inserted. -/
@[simp] theorem mapFind?_insert_same {α : Type} (l : List (Nat × α)) (a : Nat) (v : α) :
    mapFind? (mapInsert l a v) a = some v := by
  induction l with
  | nil => simp [mapInsert, mapFind?]
  | cons hd tl ih =>
    obtain ⟨k, w⟩ := hd
    unfold mapInsert
    split
    · simp [mapFind?]
    · split
      · simp [mapFind?]
      · rename_i hlt hne
        simp [mapFind?, Ne.symm hne, ih]

/-- Reading another key. -/
theorem mapFind?_insert_other {α : Type} (l : List (Nat × α)) (a b : Nat) (v : α) (h : b ≠ a) :
    mapFind? (mapInsert l a v) b = mapFind? l b := by
  induction l with
  | nil => simp [mapInsert, mapFind?, Ne.symm h]
  | cons hd tl ih =>
    obtain ⟨k, w⟩ := hd
    unfold mapInsert
    split
    · simp [mapFind?, Ne.symm h]
    · split
      · rename_i hak
        subst hak
        simp [mapFind?, Ne.symm h]
      · simp only [mapFind?, ih]

@[simp] theorem mapFind?_erase_same {α : Type} (l : List (Nat × α)) (a : Nat) : mapFind? (mapErase l a) a = none := by
  rw [mapFind?_eq_none]
  intro e he
  exact ((mapErase_mem l a e).mp he).2

theorem mapFind?_erase_other {α : Type} (l : List (Nat × α)) (a b : Nat) (h : b ≠ a) :
    mapFind? (mapErase l a) b = mapFind? l b := by
  induction l with
  | nil => rfl
  | cons hd tl ih =>
    obtain ⟨k, w⟩ := hd
    by_cases hk : k = a
    · subst hk
      rw [show mapErase ((k, w) :: tl) k = mapErase tl k by simp [mapErase], ih]
      simp [mapFind?, Ne.symm h]
    · rw [show mapErase ((k, w) :: tl) a = (k, w) :: mapErase tl a by simp [mapErase, hk]]
      simp only [mapFind?, ih]

/-! ## Memory (R8, R23) -/

/-- A write keeps the canonical form. -/
theorem memWrite_wf (m : Memory) (a : Nat) (v : Byte) (h : Memory.wf m) : Memory.wf (memWrite m a v) := by
  unfold memWrite
  split
  · exact ⟨mapErase_rising m a h.1, fun e he => h.2 e ((mapErase_mem m a e).mp he).1⟩
  · rename_i hv
    refine ⟨mapInsert_rising m a v h.1, ?_⟩
    intro e he
    rcases mapInsert_mem m a v e he with rfl | he
    · exact hv
    · exact h.2 e he

/-- A write lists no address but the one written. -/
theorem memWrite_mem (m : Memory) (a : Nat) (v : Byte) (e : Host.Cell) (h : e ∈ memWrite m a v) :
    e.1 = a ∨ e ∈ m := by
  unfold memWrite at h
  split at h
  · exact Or.inr ((mapErase_mem m a e).mp h).1
  · rcases mapInsert_mem m a v e h with rfl | h
    · exact Or.inl rfl
    · exact Or.inr h

/-- Reading the byte just written. -/
@[simp] theorem memRead_write_same (m : Memory) (a : Nat) (v : Byte) : memRead (memWrite m a v) a = v := by
  unfold memRead memWrite
  split
  · rename_i hv; simp [hv]
  · simp

/-- Reading any other byte. -/
theorem memRead_write_other (m : Memory) (a b : Nat) (v : Byte) (h : b ≠ a) :
    memRead (memWrite m a v) b = memRead m b := by
  unfold memRead memWrite
  split
  · rw [mapFind?_erase_other m a b h]
  · rw [mapFind?_insert_other m a b v h]

/-- The launch memory is in canonical form. -/
theorem launch_memory_wf : Memory.wf Config.launch.eeInit := by decide

/-- Every EEPROM of the reset state has a memory in canonical form. -/
theorem reset_memory_wf (d : Eeprom) (h : DevState.eeprom d ∈ State.reset.devices.map Device.st) : Memory.wf d.buf := by
  have : d = Eeprom.constructed Config.launch := by
    simpa [State.reset, State.launched, launchDevices, constructAll, constructDevice, DevState.constructed] using h
  subst this
  exact launch_memory_wf

end Sys2Proof.Machine
end

