-- ==== Sys2Proof/Laws/PerInstr.lean ====
section
/-! SUPPORT. Statements about every instruction, one lemma per constructor: an instruction's encoding carries the
fixed bits of its row of spec/opcode_table.json. -/

namespace Sys2Proof.Laws.EncodesToItsRow

open Sys2Proof.Machine

/-- A bus word has the fixed bits `pattern` under `mask` (R66). -/
def wordRow (w : BusWord) (mask pattern : BitVec 32) : Prop := w &&& mask = pattern

/-- The encoding of `i` has the fixed bits of its row: mask and match of R66 for the words, the first byte or the
prefix of R73 and R231 for the display commands, the format for the operands. -/
def Statement (i : Instr) : Prop :=
  match i with
  | .startW _ _ => ∃ w, encode i = .busOut w ∧ wordRow w 0x00013300 0x00000100
  | .startR _ _ => ∃ w, encode i = .busOut w ∧ wordRow w 0x00013300 0x00010100
  | .write _ _ _ => ∃ w, encode i = .busOut w ∧ wordRow w 0x00003300 0x00001000
  | .read _ _ _ => ∃ w, encode i = .busOut w ∧ wordRow w 0x00003300 0x00002000
  | .stop _ _ _ => ∃ w, encode i = .busOut w ∧ wordRow w 0x00003300 0x00000200
  | .ack _ _ _ => ∃ w, encode i = .busIn w ∧ wordRow w 0x00003B00 0x00000800
  | .ackRead _ _ _ => ∃ w, encode i = .busIn w ∧ wordRow w 0x00003B00 0x00002800
  | .bs => encode i = .stream [0x08]
  | .ht => encode i = .stream [0x09]
  | .lf => encode i = .stream [0x0A]
  | .hom => encode i = .stream [0x0B]
  | .clr => encode i = .stream [0x0C]
  | .cr => encode i = .stream [0x0D]
  | .print20 c => ∃ b, encode i = .stream [b] ∧ b &&& 0xE0 = 0x20 ∧ b.extractLsb' 0 5 = c
  | .print40 c => ∃ b, encode i = .stream [b] ∧ b &&& 0xC0 = 0x40 ∧ b.extractLsb' 0 6 = c
  | .print80 c => ∃ b, encode i = .stream [b] ∧ b &&& 0x80 = 0x80 ∧ b.extractLsb' 0 7 = c
  | .escInit => encode i = .stream [0x1B, 0x40]
  | .usCursor xL xH yL yH => encode i = .stream [0x1F, 0x24, xL, xH, yL, yH]
  | .usMag x y => encode i = .stream [0x1F, 0x28, 0x67, 0x40, x, y]
  | .usImage xL xH yL yH g payload => encode i = .stream (0x1F :: 0x28 :: 0x66 :: 0x11 :: xL :: xH :: yL :: yH :: g :: payload)
  | .usScroll wL wH cL cH sp => encode i = .stream [0x1F, 0x28, 0x61, 0x10, wL, wH, cL, cH, sp]
  | .usBlink p t1 t2 c => encode i = .stream [0x1F, 0x28, 0x61, 0x11, p, t1, t2, c]
  | .usWinSelect a => encode i = .stream [0x1F, 0x28, 0x77, 0x01, a]
  | .usWinDefine a b payload => encode i = .stream (0x1F :: 0x28 :: 0x77 :: 0x02 :: a :: b :: payload)
  | .ledctl ai reg => ∃ b, encode i = .ledSelect b ∧ b &&& 0x60 = 0x00 ∧ b.extractLsb' 0 5 = reg ∧ b.getLsbD 7 = ai
  | .eeaddr hi lo => encode i = .eeAddress hi lo

/-! ## The constructors -/

theorem wordRow_of_bits (data a flags : Byte) (mask pattern : BitVec 32)
    (h : ∀ i, i < 32 → ((busWord data a flags).getLsbD i && mask.getLsbD i) = pattern.getLsbD i) :
    wordRow (busWord data a flags) mask pattern := by
  apply BitVec.eq_of_getLsbD_eq
  intro i hi
  rw [BitVec.getLsbD_and, h i hi]

theorem startW (data : Byte) (a : BusAddress) : Statement (.startW data a) := by
  refine ⟨busWord data (addressByte a false) flagStart, rfl, wordRow_of_bits _ _ _ _ _ fun i hi => ?_⟩
  have h16 : (addressByte a false)[0] = false := by
    simpa using addressByte_rnw a false
  rw [busWord_getLsbD]
  interval_cases i <;> simp [flagStart, h16]

theorem startR (data : Byte) (a : BusAddress) : Statement (.startR data a) := by
  refine ⟨busWord data (addressByte a true) flagStart, rfl, wordRow_of_bits _ _ _ _ _ fun i hi => ?_⟩
  have h16 : (addressByte a true)[0] = true := by
    simpa using addressByte_rnw a true
  rw [busWord_getLsbD]
  interval_cases i <;> simp [flagStart, h16]

theorem write (data : Byte) (a : BusAddress) (rnw : Bool) : Statement (.write data a rnw) := by
  refine ⟨busWord data (addressByte a rnw) flagWrite, rfl, wordRow_of_bits _ _ _ _ _ fun i hi => ?_⟩
  rw [busWord_getLsbD]
  interval_cases i <;> simp [flagWrite]

theorem read (data : Byte) (a : BusAddress) (rnw : Bool) : Statement (.read data a rnw) := by
  refine ⟨busWord data (addressByte a rnw) flagRead, rfl, wordRow_of_bits _ _ _ _ _ fun i hi => ?_⟩
  rw [busWord_getLsbD]
  interval_cases i <;> simp [flagRead]

theorem stop (data : Byte) (a : BusAddress) (rnw : Bool) : Statement (.stop data a rnw) := by
  refine ⟨busWord data (addressByte a rnw) flagStop, rfl, wordRow_of_bits _ _ _ _ _ fun i hi => ?_⟩
  rw [busWord_getLsbD]
  interval_cases i <;> simp [flagStop]

theorem ack (data : Byte) (a : BusAddress) (rnw : Bool) : Statement (.ack data a rnw) := by
  refine ⟨busWord data (addressByte a rnw) flagAck, rfl, wordRow_of_bits _ _ _ _ _ fun i hi => ?_⟩
  rw [busWord_getLsbD]
  interval_cases i <;> simp [flagAck]

theorem ackRead (data : Byte) (a : BusAddress) (rnw : Bool) : Statement (.ackRead data a rnw) := by
  refine ⟨busWord data (addressByte a rnw) (flagAck ||| flagRead), rfl, wordRow_of_bits _ _ _ _ _ fun i hi => ?_⟩
  rw [busWord_getLsbD]
  interval_cases i <;> simp [flagAck, flagRead]

theorem bs : Statement .bs := rfl

theorem ht : Statement .ht := rfl

theorem lf : Statement .lf := rfl

theorem hom : Statement .hom := rfl

theorem clr : Statement .clr := rfl

theorem cr : Statement .cr := rfl

theorem escInit : Statement .escInit := rfl

theorem print20 (c : BitVec 5) : Statement (.print20 c) := by
  have h : ∀ x : BitVec 5, print20Byte x &&& 0xE0 = 0x20 ∧ (print20Byte x).extractLsb' 0 5 = x := by decide
  exact ⟨_, rfl, h c⟩

theorem print40 (c : BitVec 6) : Statement (.print40 c) := by
  have h : ∀ x : BitVec 6, print40Byte x &&& 0xC0 = 0x40 ∧ (print40Byte x).extractLsb' 0 6 = x := by decide
  exact ⟨_, rfl, h c⟩

theorem print80 (c : BitVec 7) : Statement (.print80 c) := by
  have h : ∀ x : BitVec 7, print80Byte x &&& 0x80 = 0x80 ∧ (print80Byte x).extractLsb' 0 7 = x := by decide
  exact ⟨_, rfl, h c⟩

theorem usCursor (xL xH yL yH : Byte) : Statement (.usCursor xL xH yL yH) := rfl

theorem usMag (x y : Byte) : Statement (.usMag x y) := rfl

theorem usImage (xL xH yL yH g : Byte) (payload : List Byte) : Statement (.usImage xL xH yL yH g payload) := rfl

theorem usScroll (wL wH cL cH sp : Byte) : Statement (.usScroll wL wH cL cH sp) := rfl

theorem usBlink (p t1 t2 c : Byte) : Statement (.usBlink p t1 t2 c) := rfl

theorem usWinSelect (a : Byte) : Statement (.usWinSelect a) := rfl

theorem usWinDefine (a b : Byte) (payload : List Byte) : Statement (.usWinDefine a b payload) := rfl

theorem eeaddr (hi lo : Byte) : Statement (.eeaddr hi lo) := rfl

theorem ledctl (ai : Bool) (reg : BitVec 5) : Statement (.ledctl ai reg) := by
  have h : ∀ (x : Bool) (r : BitVec 5), ledctlByte x r &&& 0x60 = 0x00 ∧ (ledctlByte x r).extractLsb' 0 5 = r ∧
      (ledctlByte x r).getLsbD 7 = x := by decide
  exact ⟨_, rfl, h ai reg⟩

end Sys2Proof.Laws.EncodesToItsRow
end

