-- ==== Sys2Proof/Tests/Slice0.lean ====
section
/-! SUPPORT. Tests, with expectations taken by hand from the rules and from spec/95_test_vectors.md, and for each
statement with hypotheses a witness that its hypotheses can be met, clause by clause. -/

namespace Sys2Proof.Tests

open Sys2Proof Sys2Proof.Machine

/-! ## Well-formedness -/

theorem test_wf_ack_carries_zero : ¬ WellFormed (.ack 0x01 0x50 false) ∧ WellFormed (.ack 0x00 0x50 false) := by decide

theorem test_wf_image_payload_is_w_times_h :
    ¬ WellFormed (.usImage 2 0 1 0 1 [0xFF]) ∧ WellFormed (.usImage 2 0 1 0 1 [0xFF, 0x81]) := by decide

theorem test_wf_window_payload_is_eight_or_none :
    ¬ WellFormed (.usWinDefine 1 1 []) ∧ ¬ WellFormed (.usWinDefine 1 0 [7]) ∧
    WellFormed (.usWinDefine 1 0 []) ∧ WellFormed (.usWinDefine 1 1 [1, 2, 3, 4, 5, 6, 7, 8]) := by decide

/-! ## Decoding: one word of each row, written out from its field table -/

/-- E1, E2 (95): START_W and START_R to 0x50. -/
theorem test_decode_starts :
    decode (.busOut 0x00A00100) = .ok (.startW 0x00 0x50) ∧ decode (.busOut 0x00A10100) = .ok (.startR 0x00 0x50) := by
  decide

/-- E3, E4, E5 (95). -/
theorem test_decode_write_read_stop :
    decode (.busOut 0x10A01000) = .ok (.write 0x10 0x50 false) ∧
    decode (.busOut 0x00A12000) = .ok (.read 0x00 0x50 true) ∧
    decode (.busOut 0x00A00200) = .ok (.stop 0x00 0x50 false) := by decide

/-- E6 (95): the ignored bits set. -/
theorem test_decode_ignores_the_ignored_bits : decode (.busOut 0xFFA0C9FF) = .ok (.startW 0xFF 0x50) := by decide

/-- E7 (95): the four malformed words. -/
theorem test_decode_malformed :
    decode (.busOut 0x00A01100) = .error .malformedMessage ∧ decode (.busOut 0x00A00000) = .error .malformedMessage ∧
    decode (.busOut 0x00A00400) = .error .malformedMessage ∧
    decode (.busOut 0x00A02200) = .error .malformedMessage := by decide

/-- E8 (95): the two replies. -/
theorem test_decode_replies :
    decode (.busIn 0x00680800) = .ok (.ack 0x00 0x34 false) ∧
    decode (.busIn 0x98692800) = .ok (.ackRead 0x98 0x34 true) ∧
    decode (.busIn 0x00680900) = .error .notAReply := by decide

/-- R73: the six control bytes. -/
theorem test_decode_control_bytes :
    decode (.stream [0x08]) = .ok .bs ∧ decode (.stream [0x09]) = .ok .ht ∧ decode (.stream [0x0A]) = .ok .lf ∧
    decode (.stream [0x0B]) = .ok .hom ∧ decode (.stream [0x0C]) = .ok .clr ∧
    decode (.stream [0x0D]) = .ok .cr := by decide

/-- R79: both ends of the three rows of PRINT. -/
theorem test_decode_print :
    decode (.stream [0x20]) = .ok (.print20 0) ∧ decode (.stream [0x3F]) = .ok (.print20 0x1F) ∧
    decode (.stream [0x40]) = .ok (.print40 0) ∧ decode (.stream [0x7F]) = .ok (.print40 0x3F) ∧
    decode (.stream [0x80]) = .ok (.print80 0) ∧ decode (.stream [0xFF]) = .ok (.print80 0x7F) := by decide

/-- R231: the four commands that act. -/
theorem test_decode_commands :
    decode (.stream [0x1B, 0x40]) = .ok .escInit ∧
    decode (.stream [0x1F, 0x24, 0x0A, 0x00, 0x02, 0x01]) = .ok (.usCursor 0x0A 0x00 0x02 0x01) ∧
    decode (.stream [0x1F, 0x28, 0x67, 0x40, 0x02, 0x01]) = .ok (.usMag 0x02 0x01) ∧
    decode (.stream [0x1F, 0x28, 0x66, 0x11, 2, 0, 1, 0, 1, 0xFF, 0x81]) =
      .ok (.usImage 2 0 1 0 1 [0xFF, 0x81]) := by decide

/-- R231: the four stubs. -/
theorem test_decode_stubs :
    decode (.stream [0x1F, 0x28, 0x61, 0x10, 1, 2, 3, 4, 5]) = .ok (.usScroll 1 2 3 4 5) ∧
    decode (.stream [0x1F, 0x28, 0x61, 0x11, 1, 2, 3, 4]) = .ok (.usBlink 1 2 3 4) ∧
    decode (.stream [0x1F, 0x28, 0x77, 0x01, 9]) = .ok (.usWinSelect 9) ∧
    decode (.stream [0x1F, 0x28, 0x77, 0x02, 9, 0]) = .ok (.usWinDefine 9 0 []) ∧
    decode (.stream [0x1F, 0x28, 0x77, 0x02, 9, 1, 1, 2, 3, 4, 5, 6, 7, 8]) =
      .ok (.usWinDefine 9 1 [1, 2, 3, 4, 5, 6, 7, 8]) := by decide

/-- R223, R224, R231: bytes that are no command are refused by name. -/
theorem test_decode_rejects_by_name :
    decode (.stream [0x07]) = .error .unrecognized ∧ decode (.stream [0x1F, 0x28, 0x99]) = .error .unrecognized ∧
    decode (.stream [0x1F, 0x24, 1]) = .error .incomplete ∧ decode (.stream [0x1F]) = .error .incomplete ∧
    decode (.stream [0x0C, 0x0C]) = .error .trailing := by decide

/-- E15 (95): LEDCTL. -/
theorem test_decode_ledctl :
    decode (.ledSelect 0x80) = .ok (.ledctl true 0) ∧ decode (.ledSelect 0x1B) = .ok (.ledctl false 0x1B) ∧
    decode (.ledSelect 0x94) = .ok (.ledctl true 0x14) ∧ decode (.ledSelect 0xA2) = .error .ledSubRange ∧
    decode (.ledSelect 0x3C) = .error .ledSubRange := by decide

/-- E17 (95): EEADDR; R67 puts the high byte first. -/
theorem test_decode_eeaddr :
    decode (.eeAddress 0x01 0x10) = .ok (.eeaddr 0x01 0x10) ∧ eeAddress 0x01 0x10 = 0x0110 ∧
    eeAddress 0xFF 0xFF = 0xFFFF := by decide

/-- Table words, numbered as the table numbers them. -/
theorem test_decode_table_words :
    decodeTableWord 32 0x00000100 = some (.startW 0 0) ∧ decodeTableWord 32 0x00000800 = some (.ack 0 0 false) ∧
    decodeTableWord 8 0x41 = some (.print40 1) ∧ decodeTableWord 16 0x1B40 = some .escInit ∧
    decodeTableWord 32 0x1F286740 = some (.usMag 0 0) ∧ decodeTableWord 16 0x0110 = some (.eeaddr 0x01 0x10) := by
  decide

/-! ## Operands (95, section 2.1) -/

/-- E9 to E12 (95). -/
theorem test_key_codes :
    keyEventByte true (keyCode 2 3) = 0x98 ∧ keyEventByte false (keyCode 2 3) = 0x18 ∧
    keyEventByte true (keyCode 0 0) = 0x81 ∧ keyEventByte true (keyCode 7 9) = 0xD0 ∧
    decodeKeyEvent 0xD0 = some { pressed := true, row := 7, col := 9 } ∧
    decodeKeyEvent 0x18 = some { pressed := false, row := 2, col := 3 } ∧ decodeKeyEvent 0x00 = none := by decide

/-- E13, E14 (95). -/
theorem test_bcd :
    bcdDec 0x59 0x70 = 59 ∧ bcdDec 0xD9 0x70 = 59 ∧ bcdDec 0x72 0x10 = 12 ∧ bcdDec 0x23 0x30 = 23 ∧
    bcdEnc 10 0x70 = 0x10 ∧ bcdEnc 1 0x10 = 0x01 ∧ bcdEnc 99 0xF0 = 0x99 ∧ bcdEnc 0 0x30 = 0x00 := by decide

/-- E16, E18 (95). -/
theorem test_ledout_and_arguments :
    (List.range 4).map (ledModeBits 0xE4) = [0b00, 0b01, 0b10, 0b11] ∧ arg16 0x0A 0x00 = 10 ∧
    arg16 0x34 0x12 = 0x1234 := by decide

/-! ## Small states -/

/-- A small block: registers 0 to 7 in the RTC, 16 bytes of EEPROM, a display of 12 by 16 with glyphs of 6 by 8. -/
def tiny : Config :=
  { Config.launch with rtcLast := 7, eeSize := 16, kpRows := 2, dispW := 12, dispH := 16 }

/-- One device at 0x50. -/
def only (st : DevState) : Device := { addrs := onlyAddress 0x50, live := true, st := st }

/-- The block with one device at 0x50. -/
def lone (st : DevState) : State := { State.launched tiny [] 0 with devices := [only st] }

/-- A register core. -/
def core (ph : Phase) (sel : Option Nat) (regs : List Byte) : RegCore := { phase := ph, sel := sel, regs := regs }

def clock (ph : Phase) (sel : Option Nat) (regs : List Byte) (osc : BitVec 15) : Rtc :=
  { core := core ph sel regs, osc := osc, sqwLevel := false, sqwPin := false, timer := 0 }

/-- A keypad with the count register and the first slots given. -/
def keys (ph : Phase) (sel : Option Nat) (cfg : Byte) (count : Byte) (slots : List Byte) : Keypad :=
  { Keypad.constructed with
    core := core ph sel ([0, cfg, 0, count] ++ slots ++ List.replicate (43 - slots.length) 0) }

/-- A keypad with an unacknowledged interrupt. -/
def rung (ph : Phase) (sel : Option Nat) : Keypad :=
  { Keypad.constructed with
    core := core ph sel ([0, 1, 1, 1, 0x98] ++ List.replicate 42 0), unacked := 0x01, intN := false }

def lights (ph : Phase) (sel : Option Nat) (ai : Bool) : Led :=
  { core := core ph sel (List.replicate 28 0), autoinc := ai }

def eeprom (ph : EePhase) (hi : Option Byte) (ptr : Option Nat) : Eeprom :=
  { phase := ph, addrHi := hi, ptr := ptr, buf := [(3, 0x5A)] }

/-- A display in Receiving with the cursor given. -/
def screen (cx cy : Nat) : Display := { Display.constructed tiny with phase := .receiving, cx := cx, cy := cy }

/-- The same with a magnified glyph. -/
def magnified (cx cy mx my : Nat) : Display := { screen cx cy with magX := mx, magY := my }

/-- One display whose busy pulse is due to end at 320. -/
def pulsing (now : Nat) : State :=
  { lone (.display { screen 6 8 with busy := true, busyTimer := some 3 }) with
    now := now, nextId := 4
    pending := [{ id := 3, owner := 0, fireAt := 320, payload := .busyEnd, periodic := none }]
    inbox := [.fire 3] }

/-- Time registers one second before a minute, the square wave on at 1 Hz. -/
def minuteEnd : List Byte := [0x59, 0, 0, 1, 1, 1, 0, 0x10]

/-- The next state, or the state itself where there is none. -/
def nextOf (o : Host.Outcome State Fault Refusal) (s : State) : State :=
  match o with
  | .next t => t
  | .fault _ | .refused _ => s

/-- The device at position 0 after an instruction. -/
def stAfter (i : Instr) (s : State) : Option DevState := ((nextOf (exec i s) s).devices[0]?).map Device.st

/-- The trace after an instruction. -/
def traceAfter (i : Instr) (s : State) : List OutputEvent := (nextOf (exec i s) s).trace

/-- Why the run stopped, after an instruction. -/
def abortAfter (i : Instr) (s : State) : Option FaultRecord := (nextOf (exec i s) s).aborted

/-- The only device's display after an instruction, looked at by `f`. -/
def look {α : Type} (f : Display → α) (i : Instr) (s : State) : Option α :=
  match stAfter i s with
  | some (.display d) => some (f d)
  | _ => none

/-! ## One step of each instruction -/

/-- A1 (95): the EEPROM is addressed and replies 0x00A00800. -/
theorem test_startW_eeprom :
    stAfter (.startW 0 0x50) (lone (.eeprom (eeprom .idle none none))) =
      some (.eeprom (eeprom .addressingHigh none none)) ∧
    traceAfter (.startW 0 0x50) (lone (.eeprom (eeprom .idle none none))) = [.busIn 0x00A00800] := by decide

/-- A2 (95): a START to another address resets. -/
theorem test_startW_resets_the_unmatched :
    stAfter (.startW 0 0x51) (lone (.keypad (keys .dataWrite (some 1) 0 0 []))) =
      some (.keypad (keys .idle none 0 0 [])) := by decide

/-- M3, F1 (95): nothing selected. -/
theorem test_startR_needs_a_selection :
    (abortAfter (.startR 0 0x50) (lone (.eeprom (eeprom .idle none none)))).map FaultRecord.cause =
      some .protocolDesync := by decide

/-- F9 (95): the kept selection is read from. -/
theorem test_startR_keeps_sel :
    stAfter (.startR 0 0x50) (lone (.rtc (clock .addressPhase (some 5) [] 0))) =
      some (.rtc (clock .dataRead (some 5) [] 0)) := by decide

/-- F8 (95), its third data byte: register 0x2E, then index 0. -/
theorem test_write_wraps_at_the_last_register :
    stAfter (.write 0x22 0x50 false) (lone (.keypad (keys .dataWrite (some 0x2E) 0 0 []))) =
      some (.keypad { keys .dataWrite (some 0) 0 0 [] with
        core := core .dataWrite (some 0) (List.replicate 46 0 ++ [0x22]) }) := by decide

/-- P2 (95): the acknowledge releases the line before the ACK. -/
theorem test_write_acknowledges :
    traceAfter (.write 0x01 0x50 false) (lone (.keypad (rung .dataWrite (some 2)))) =
      [.pin 0 .intN true, .busIn 0x00A00800] := by decide

/-- R186: a read of KP_KEY_EVENT_A returns the oldest event and moves the next one down. -/
theorem test_read_pops :
    stAfter (.read 0 0x50 true) (lone (.keypad (keys .dataRead (some 4) 0 2 [0x98, 0x18]))) =
      some (.keypad (keys .dataRead (some 5) 0 1 [0x18, 0])) ∧
    traceAfter (.read 0 0x50 true) (lone (.keypad (keys .dataRead (some 4) 0 2 [0x98, 0x18]))) =
      [.busIn 0x98A12800] := by decide

/-- R166: the byte at the pointer, then the next address. -/
theorem test_read_eeprom :
    stAfter (.read 0 0x50 true) (lone (.eeprom (eeprom .dataRead none (some 3)))) =
      some (.eeprom (eeprom .dataRead none (some 4))) ∧
    traceAfter (.read 0 0x50 true) (lone (.eeprom (eeprom .dataRead none (some 3)))) = [.busIn 0x5AA12800] := by decide

/-- A6, F11 (95). -/
theorem test_stop_resets_without_a_reply :
    stAfter (.stop 0 0x50 false) (lone (.led (lights .dataWrite (some 3) true))) =
      some (.led (lights .idle none false)) ∧
    traceAfter (.stop 0 0x50 false) (lone (.led (lights .dataWrite (some 3) true))) = [] := by decide

/-- E8 (95): the words of the replies. -/
theorem test_replies :
    traceAfter (.ack 0 0x34 false) (lone (.led (lights .idle none false))) = [.busIn 0x00680800] ∧
    traceAfter (.ackRead 0x98 0x34 true) (lone (.led (lights .idle none false))) = [.busIn 0x98692800] := by decide

/-- R232: one glyph back, then to the last glyph of the line above. -/
theorem test_bs :
    look (fun d => (d.cx, d.cy)) .bs (lone (.display (screen 6 8))) = some (0, 8) ∧
    look (fun d => (d.cx, d.cy)) .bs (lone (.display (screen 5 8))) = some (6, 0) := by decide

/-- R233, R230: 0 to 6 still leaves room for a glyph, 6 to 12 does not. -/
theorem test_ht :
    look (fun d => (d.cx, d.cy)) .ht (lone (.display (screen 0 0))) = some (6, 0) ∧
    look (fun d => (d.cx, d.cy)) .ht (lone (.display (screen 6 0))) = some (0, 8) := by decide

/-- R234: down a line, then to the top; the column is kept. -/
theorem test_lf :
    look (fun d => (d.cx, d.cy)) .lf (lone (.display (screen 6 0))) = some (6, 8) ∧
    look (fun d => (d.cx, d.cy)) .lf (lone (.display (screen 6 8))) = some (6, 0) := by decide

/-- R235 and R237. -/
theorem test_hom_cr :
    look (fun d => (d.cx, d.cy)) .hom (lone (.display (screen 6 8))) = some (0, 0) ∧
    look (fun d => (d.cx, d.cy)) .cr (lone (.display (screen 6 8))) = some (0, 8) := by decide

/-- R236, R238: CLR keeps the magnification, ESC_INIT does not. -/
theorem test_clr_esc_init :
    look id .clr (lone (.display { magnified 6 8 2 1 with text := [] })) = some (magnified 0 0 2 1) ∧
    look id .escInit (lone (.display { magnified 6 8 2 1 with px := [] })) = some (screen 0 0) := by decide

/-- P6 (95): a printed byte stands in its text cell and the cursor advances by one glyph. -/
theorem test_print :
    look (fun d => (d.cx, d.cy, d.text)) (.print40 0x01) (lone (.display (screen 0 0))) =
      some (6, 0, [[0x41, 0x20], [0x20, 0x20]]) ∧
    look (fun d => (d.cx, d.cy, d.text)) (.print20 0x01) (lone (.display (screen 6 0))) =
      some (0, 8, [[0x20, 0x21], [0x20, 0x20]]) ∧
    look (fun d => (d.cx, d.cy, d.text)) (.print80 0x7F) (lone (.display (screen 6 8))) =
      some (0, 0, [[0x20, 0x20], [0x20, 0xFF]]) := by decide

/-- R239: y counts groups of 8 rows; out of range it is logged and ignored. -/
theorem test_us_cursor :
    look (fun d => (d.cx, d.cy)) (.usCursor 11 0 1 0) (lone (.display (screen 0 0))) = some (11, 8) ∧
    (nextOf (exec (.usCursor 12 0 0 0) (lone (.display (screen 0 0)))) (lone (.display (screen 0 0)))).dbglog =
      [{ device := 0, bytes := [0x1F, 0x24, 12, 0, 0, 0] }] := by decide

/-- R241. -/
theorem test_us_mag :
    look (fun d => (d.magX, d.magY)) (.usMag 4 2) (lone (.display (screen 0 0))) = some (4, 2) ∧
    look (fun d => (d.magX, d.magY)) (.usMag 5 1) (lone (.display (screen 0 0))) = some (1, 1) := by decide

/-- R240, bit 7 uppermost: column 0 of 0x81 lights the rows 0 and 7. -/
theorem test_us_image :
    look (fun d => d.px.map (fun row => row.take 2)) (.usImage 1 0 1 0 1 [0x81]) (lone (.display (screen 0 8))) =
      some (List.replicate 8 [false, false] ++ [[true, false]] ++ List.replicate 6 [false, false] ++
        [[true, false]]) := by decide

/-- R243: the stubs draw nothing and log nothing. -/
theorem test_stubs :
    (∀ i ∈ [Instr.usScroll 1 0 1 0 1, .usBlink 1 1 1 1, .usWinSelect 1, .usWinDefine 1 0 []],
      nextOf (exec i (lone (.display (screen 6 8)))) (lone (.display (screen 0 0))) = lone (.display (screen 6 8))) := by
  decide

/-- E15 (95), and R285: bits 6:5 are tested before the range. -/
theorem test_ledctl :
    stAfter (.ledctl true 0x14) (lone (.led (lights .addressPhase none false))) =
      some (.led (lights .dataWrite (some 0x14) true)) ∧
    abortAfter (.ledctl false 0x1C) (lone (.led (lights .addressPhase none false))) =
      some { cause := .outOfRange, device := 0, info := .index 0x1C } ∧
    abortAfter (.write 0x3C 0x50 false) (lone (.led (lights .addressPhase none false))) =
      some { cause := .unimplemented, device := 0, info := .feature 0x3C } := by decide

/-- M1 (95), its two address bytes. -/
theorem test_eeaddr :
    stAfter (.eeaddr 0x01 0x10) (lone (.eeprom (eeprom .addressingHigh none none))) =
      some (.eeprom (eeprom .dataWrite none (some 0x0110))) := by decide

/-- T5, T8, T11, T17, T20 (95): the carry chain. -/
theorem test_carry_chain :
    ∀ e ∈ ([([0x59, 0x59, 0x23, 0x03, 0x15, 0x06, 0x24], [0x00, 0x00, 0x00, 0x04, 0x16, 0x06, 0x24]),
            ([0x59, 0x59, 0x72, 0x02, 0x15, 0x06, 0x24], [0x00, 0x00, 0x41, 0x03, 0x16, 0x06, 0x24]),
            ([0x59, 0x59, 0x23, 0x02, 0x28, 0x02, 0x24], [0x00, 0x00, 0x00, 0x03, 0x29, 0x02, 0x24]),
            ([0x59, 0x59, 0x23, 0x07, 0x31, 0x12, 0x99], [0x00, 0x00, 0x00, 0x01, 0x01, 0x01, 0x00]),
            ([0x59, 0x59, 0x23, 0xFF, 0x01, 0x01, 0x00], [0x00, 0x00, 0x00, 0xF9, 0x02, 0x01, 0x00])] :
          List (List Byte × List Byte)),
      (Chain.seconds Config.launch { regs := e.1, draws := 0 }).regs = e.2 := by decide

/-- T24 (95): at the wrap the second runs and the 1 Hz wave falls. -/
theorem test_square_wave_falls_at_the_wrap :
    (rtcTick (lone (.rtc (clock .idle none minuteEnd 32767))).env
      { clock .idle none minuteEnd 32767 with sqwLevel := true, sqwPin := true }).2 = [.drew 0, .pin .sqw false] := by decide

/-- R245: the busy end lowers the pin. -/
theorem test_busy_end :
    (nextOf (step (pulsing 320)) (pulsing 0)).trace = [.pin 0 .busy false] ∧
    (nextOf (step (pulsing 319)) (pulsing 0)).trace = [] := by decide

/-- T23 (95): bit 14 of the counter rises on the square wave pin. -/
theorem test_square_wave :
    (rtcTick (lone (.rtc (clock .idle none [0, 0, 0, 1, 1, 1, 0, 0x10] 16383))).env
      (clock .idle none [0, 0, 0, 1, 1, 1, 0, 0x10] 16383)).2 = [.pin .sqw true] := by decide

/-! ## Witnesses: for each statement with hypotheses, states and operands that meet them, at the ends of the ranges
its clauses name -/

/-- A state with one move of the agents to come. -/
def given (e : HostEvent) (s : State) : State := { s with inbox := [e] }

/-- The block with two devices, at 0x50 and at 0x51. -/
def pair (st st' : DevState) : State :=
  { lone st with devices := [only st, { addrs := onlyAddress 0x51, live := true, st := st' }] }

/-- One keypad, 50 us later a release of key 1 is due. -/
def held (now : Nat) : State :=
  { lone (.keypad { keys .idle none 1 0 [] with pendingRelease := [(1, 7)] }) with
    now := now, nextId := 8
    pending := [{ id := 7, owner := 0, fireAt := 800, payload := .keyRelease 1, periodic := none }] }

/-- One RTC whose tick is due. -/
def ticking (d : Rtc) : State :=
  { lone (.rtc d) with
    now := 488, nextId := 1
    pending := [{ id := 0, owner := 0, fireAt := 488, payload := .rtcTick, periodic := some 488 }]
    inbox := [.fire 0] }

/-- One second before the end of the century, as in P4 (95). -/
def newYearsEve : List Byte := [0x59, 0x59, 0x23, 0x07, 0x31, 0x12, 0x99, 0x10]

/-- An aborted run. -/
def stopped : State :=
  { lone (.led (lights .idle none false)) with
    aborted := some { cause := .unimplemented, device := 0, info := .feature 3 } }

theorem witness_StepRunsDecodedInstruction :
    (given (.operation [1, 0] 0 (.busOut 0x00A00100)) (lone (.led (lights .idle none false)))).inbox =
      .operation [1, 0] 0 (.busOut 0x00A00100) :: [] ∧
    decode (.busOut 0x00A00100) = .ok (.startW 0 0x50) ∧ decodeTableWord 8 0x0C = some .clr := by decide

theorem witness_DecodeOfEncode :
    ∀ i ∈ [Instr.startW 0xFF 0x7F, .startR 0xFF 0x7F, .write 0xFF 0x7F true, .read 0xFF 0x7F true,
        .stop 0xFF 0x7F true, .ack 0 0x7F true, .ackRead 0xFF 0x7F true, .bs, .ht, .lf, .hom, .clr, .cr, .print20 0x1F,
        .print40 0x3F, .print80 0x7F, .escInit, .usCursor 1 2 3 4, .usMag 1 2, .usImage 0 0 1 0 1 [],
        .usImage 1 0 2 0 1 [1, 2], .usScroll 1 2 3 4 5, .usBlink 1 2 3 4, .usWinSelect 1, .usWinDefine 1 2 [],
        .usWinDefine 1 1 [1, 2, 3, 4, 5, 6, 7, 8], .ledctl true 0x1F, .eeaddr 0xFF 0xFF],
      WellFormed i := by decide

theorem witness_InvariantAfterLaunch :
    configOk Config.launch ∧ configOk { tiny with cyclesPerUs := 1, rtcTickPeriod := 1, eeSize := 1 } ∧
    configOk { tiny with eeSize := 65536, eeInit := [(65535, 0)], dispW := 1, dispH := 1 } :=
  ⟨by decide, by decide, by decide⟩

theorem witness_InvariantKeptByEveryStep :
    (given (.operation [] 0 (.busOut 0x00A00100))
      (State.launched tiny [⟨.rtc, onlyAddress 0x68⟩, ⟨.eeprom, onlyAddress 0x50⟩, ⟨.keypad, onlyAddress 0x34⟩,
        ⟨.led, onlyAddress 0x60⟩, ⟨.display, onlyAddress 0x3C⟩] 0)).Inv ∧
    (∃ t, step (given (.operation [] 0 (.busOut 0x00A00100))
      (State.launched tiny [⟨.rtc, onlyAddress 0x68⟩, ⟨.eeprom, onlyAddress 0x50⟩, ⟨.keypad, onlyAddress 0x34⟩,
        ⟨.led, onlyAddress 0x60⟩, ⟨.display, onlyAddress 0x3C⟩] 0)) = .next t) := ⟨by decide, _, rfl⟩

theorem witness_AbortedRunHasNoStep :
    stopped.aborted = some { cause := .unimplemented, device := 0, info := .feature 3 } := by decide

theorem witness_FatalMessageLeavesItsDevice :
    (lone (.keypad (keys .idle none 0 0 []))).aborted = none ∧
    (∃ t, exec (.write 1 0x50 false) (lone (.keypad (keys .idle none 0 0 []))) = .next t ∧
      t.aborted = some { cause := .protocolDesync, device := 0, info := .message (writeMessage 1 0x50 false) }) ∧
    hostAddress? (.write 1 0x50 false) = some 0x50 ∧ matchCount (lone (.keypad (keys .idle none 0 0 []))) 0x50 = 1 :=
  ⟨by decide, ⟨_, rfl, by decide⟩, by decide, by decide⟩

theorem witness_HistoryOnlyGrows :
    ∃ t, step (given (.addKeyRawEvent 0 0x98) (lone (.keypad (keys .idle none 1 0 [])))) = .next t := ⟨_, rfl⟩

/-- Two devices, of which one, both (an address each) or none accepts the address. -/
theorem witness_StartWriteReachesEveryDevice :
    (pair (.eeprom (eeprom .dataWrite none (some 3))) (.keypad (keys .dataWrite (some 1) 0 0 []))).aborted = none ∧
    matchCount (pair (.eeprom (eeprom .dataWrite none (some 3))) (.keypad (keys .dataWrite (some 1) 0 0 []))) 0x50 = 1 ∧
    matchCount (pair (.eeprom (eeprom .dataWrite none (some 3))) (.keypad (keys .dataWrite (some 1) 0 0 []))) 0x52 = 0
      := by decide

theorem witness_StartReadReachesEveryDevice :
    (pair (.eeprom (eeprom .dataWrite none (some 3))) (.display (screen 0 0))).aborted = none ∧
    allMatched (pair (.eeprom (eeprom .dataWrite none (some 3))) (.display (screen 0 0))) 0x50 DevState.selected ∧
    allMatched (pair (.eeprom (eeprom .dataWrite none (some 3))) (.display (screen 0 0))) 0x52 DevState.selected := by
  decide

theorem witness_StartReadWithoutSelectionIsFatal :
    (lone (.display (screen 0 0))).aborted = none ∧
    (∃ dev ∈ (lone (.display (screen 0 0))).devices, dev.live = true ∧ dev.accepts 0x50 = true ∧
      dev.st.selected = false) ∧
    (∃ dev ∈ (lone (.eeprom (eeprom .idle none none))).devices, dev.live = true ∧ dev.accepts 0x50 = true ∧
      dev.st.selected = false) := by decide

/-- Inside a transaction and outside one. -/
theorem witness_StopReturnsAddressedDevicesToIdle :
    (lone (.eeprom (eeprom .dataWrite none (some 3)))).aborted = none ∧
    (nextOf (exec (.startW 0 0x50) (lone (.eeprom (eeprom .idle none none)))) stopped).aborted = none ∧
    (nextOf (exec (.startW 0 0x50) (lone (.eeprom (eeprom .idle none none)))) stopped).openTx.isSome = true := by decide

theorem witness_UnaddressedDevicesIgnoreData :
    (lone (.keypad (keys .dataWrite (some 1) 0 0 []))).aborted = none ∧
    noMatch (lone (.keypad (keys .dataWrite (some 1) 0 0 []))) 0x51 := by decide

theorem witness_RegisterSelectedByAddressByte :
    addressed (lone (.rtc (clock .addressPhase none newYearsEve 0))) 0 (only (.rtc (clock .addressPhase none newYearsEve 0)))
      0x50 ∧
    (0x07 : Byte).toNat ≤ tiny.rtcLast ∧ tiny.rtcLast < (0x08 : Byte).toNat ∧
    addressed (lone (.keypad (keys .addressPhase none 0 0 []))) 0 (only (.keypad (keys .addressPhase none 0 0 []))) 0x50 ∧
    (0x2E : Byte).toNat ≤ 0x2E ∧ 0x2E < (0x2F : Byte).toNat := by decide

/-- 0x9B selects the last register; 0x1C is out of range; 0x20 and 0x3C set bits 6:5. -/
theorem witness_LedRegisterSelectedByAddressByte :
    addressed (lone (.led (lights .addressPhase none false))) 0 (only (.led (lights .addressPhase none false))) 0x50 ∧
    (lights .addressPhase none false).core.phase = .addressPhase ∧
    ((0x9B : Byte).extractLsb' 5 2 = 0 ∧ (0x9B : Byte).toNat % 32 ≤ 0x1B) ∧
    ((0x1C : Byte).extractLsb' 5 2 = 0 ∧ 0x1B < (0x1C : Byte).toNat % 32) ∧
    (0x20 : Byte).extractLsb' 5 2 ≠ 0 ∧ (0x3C : Byte).extractLsb' 5 2 ≠ 0 := by decide

theorem witness_PlainRegisterWrites :
    addressed (lone (.rtc (clock .dataWrite (some 7) newYearsEve 5))) 0 (only (.rtc (clock .dataWrite (some 7) newYearsEve 5)))
      0x50 ∧
    addressed (lone (.led (lights .dataWrite (some 27) true))) 0 (only (.led (lights .dataWrite (some 27) true))) 0x50 ∧
    addressed (lone (.led (lights .dataWrite (some 27) false))) 0 (only (.led (lights .dataWrite (some 27) false))) 0x50 :=
  by decide

/-- Registers on both sides of the ends of the protected range 3 to 13, and the last one; the interrupt status with
an interrupt to acknowledge and with none. -/
theorem witness_KeypadRegisterWrites :
    (∀ i ∈ [1, 3, 13, 14, 0x2E], i ≠ 2 ∧
      addressed (lone (.keypad (keys .dataWrite (some i) 0 0 []))) 0 (only (.keypad (keys .dataWrite (some i) 0 0 [])))
        0x50) ∧
    addressed (lone (.keypad (rung .dataWrite (some 2)))) 0 (only (.keypad (rung .dataWrite (some 2)))) 0x50 ∧
    addressed (lone (.keypad (keys .dataWrite (some 2) 1 0 []))) 0 (only (.keypad (keys .dataWrite (some 2) 1 0 [])))
      0x50 := by decide

theorem witness_PlainRegisterReads :
    addressed (lone (.rtc (clock .dataRead (some 7) newYearsEve 5))) 0 (only (.rtc (clock .dataRead (some 7) newYearsEve 5)))
      0x50 ∧
    addressed (lone (.led (lights .dataRead (some 27) true))) 0 (only (.led (lights .dataRead (some 27) true))) 0x50 ∧
    addressed (lone (.led (lights .dataRead (some 0) false))) 0 (only (.led (lights .dataRead (some 0) false))) 0x50 := by
  decide

/-- The event register with two events, with ten, with none; another register. -/
theorem witness_KeypadReadsAndPop :
    (∀ d ∈ [keys .dataRead (some 4) 0 2 [0x98, 0x18], keys .dataRead (some 4) 0 10 (List.replicate 10 0x81),
        keys .dataRead (some 4) 0 0 [], keys .dataRead (some 5) 0 1 [0x98], keys .dataRead (some 0x2E) 0 1 [0x98]],
      addressed (lone (.keypad d)) 0 (only (.keypad d)) 0x50 ∧ d.core.phase = .dataRead ∧ keypadOk d) := by decide

theorem witness_EepromAddressBytes :
    addressed (lone (.eeprom (eeprom .addressingHigh none none))) 0 (only (.eeprom (eeprom .addressingHigh none none)))
      0x50 ∧
    addressed (lone (.eeprom (eeprom .addressingLow (some 0xFF) none))) 0
      (only (.eeprom (eeprom .addressingLow (some 0xFF) none))) 0x50 := by decide

/-- The last address and the first beyond it, written and read. -/
theorem witness_EepromTransfers :
    ∀ ph ∈ [EePhase.dataWrite, .dataRead], ∀ p ∈ [15, 16],
      addressed (lone (.eeprom (eeprom ph none (some p)))) 0 (only (.eeprom (eeprom ph none (some p)))) 0x50 ∧
      (p < tiny.eeSize ∨ tiny.eeSize ≤ p) := by decide

theorem witness_MessagesAPhaseCannotTake :
    (∀ st ∈ [DevState.keypad (keys .idle none 0 0 []), .led (lights .dataRead (some 0) false),
        .eeprom (eeprom .dataRead none (some 3)), .display (Display.constructed tiny)],
      addressed (lone st) 0 (only st) 0x50 ∧ st.refusesWrite = true) ∧
    (∀ st ∈ [DevState.rtc (clock .dataWrite (some 1) [] 0), .eeprom (eeprom .dataWrite none (some 3)),
        .display (screen 0 0)],
      addressed (lone st) 0 (only st) 0x50 ∧ st.refusesRead = true) := by decide

/-- A5 and A4 (95), and a word without START. -/
theorem witness_MalformedMessages :
    (lone (.eeprom (eeprom .idle none none))).aborted = none ∧
    decode (.busOut 0x00A01100) = .error .malformedMessage ∧ decode (.busOut 0x00A00000) = .error .malformedMessage ∧
    (∃ dev ∈ (lone (.eeprom (eeprom .idle none none))).devices, dev.live = true ∧
      dev.accepts ((0x00A01100 : BusWord).extractLsb' 17 7) = true) ∧
    decode (.busOut 0x00A21100) = .error .malformedMessage ∧ decode (.busOut 0x00A20000) = .error .malformedMessage ∧
    noMatch (lone (.eeprom (eeprom .idle none none))) ((0x00A21100 : BusWord).extractLsb' 17 7) :=
  ⟨by decide, by decide, by decide, by decide, by decide, by decide, by decide⟩

theorem witness_AckWord_AckReadWord : (lone (.keypad (rung .dataWrite (some 2)))).aborted = none := by decide

/-- The display statements without further hypotheses: CursorControlBytes, ClearAndInitialise,
StubCommandsChangeNothing. -/
theorem witness_focused :
    focused (lone (.display (screen 0 0))) (only (.display (screen 0 0))) ∧
    focused (lone (.display (magnified 6 8 2 2))) (only (.display (magnified 6 8 2 2))) := by decide

/-- One glyph from the left; at the left with a line above and none; with a glyph just as wide as the display, and
wider. -/
theorem witness_Backspace :
    (focused (lone (.display (screen 6 0))) (only (.display (screen 6 0))) ∧ 6 * 1 ≤ (screen 6 0).cx) ∧
    (focused (lone (.display (screen 5 8))) (only (.display (screen 5 8))) ∧ (screen 5 8).cx < 6 * 1 ∧
      8 * 1 ≤ (screen 5 8).cy ∧ 6 * 1 ≤ tiny.dispW) ∧
    (focused (lone (.display (magnified 11 8 2 1))) (only (.display (magnified 11 8 2 1))) ∧
      (magnified 11 8 2 1).cx < 6 * 2 ∧ 8 * 1 ≤ (magnified 11 8 2 1).cy ∧ 6 * 2 ≤ tiny.dispW) ∧
    (focused (lone (.display (screen 5 7))) (only (.display (screen 5 7))) ∧ (screen 5 7).cx < 6 * 1 ∧
      (screen 5 7).cy < 8 * 1) ∧
    (focused (lone (.display (magnified 11 8 3 1))) (only (.display (magnified 11 8 3 1))) ∧ 1 ≤ tiny.dispW ∧
      (magnified 11 8 3 1).cx < 6 * 3 ∧ 8 * 1 ≤ (magnified 11 8 3 1).cy ∧ tiny.dispW < 6 * 3) := by decide

theorem witness_PrintDrawsItsGlyph :
    focused (lone (.display (screen 6 8))) (only (.display (screen 6 8))) ∧ displayOk tiny (screen 6 8) ∧
    displayOk tiny (magnified 11 15 4 2) ∧ printByte? (.print20 0) = some 0x20 ∧
    printByte? (.print40 0x3F) = some 0x7F ∧ printByte? (.print80 0x7F) = some 0xFF := by decide

/-- Both sides of each bound of R239 and R241. -/
theorem witness_CursorAndMagnificationSet :
    focused (lone (.display (screen 0 0))) (only (.display (screen 0 0))) ∧ (11 < tiny.dispW ∧ 1 * 8 < tiny.dispH) ∧
    ¬ (12 < tiny.dispW ∧ 1 * 8 < tiny.dispH) ∧ ¬ (11 < tiny.dispW ∧ 2 * 8 < tiny.dispH) ∧
    (1 ≤ (4 : Byte).toNat ∧ (4 : Byte).toNat ≤ 4 ∧ 1 ≤ (2 : Byte).toNat ∧ (2 : Byte).toNat ≤ 2) ∧
    ¬ (1 ≤ (0 : Byte).toNat) ∧ ¬ ((5 : Byte).toNat ≤ 4) ∧ ¬ ((3 : Byte).toNat ≤ 2) := by decide

theorem witness_ImageDrawn :
    focused (lone (.display (screen 11 8))) (only (.display (screen 11 8))) ∧ displayOk tiny (screen 11 8) ∧
    WellFormed (.usImage 2 0 2 0 1 [1, 2, 3, 4]) ∧ WellFormed (.usImage 0 0 2 0 1 []) := by decide

theorem witness_RowsWithoutTheirDeviceChangeNothing :
    (lone (.rtc (clock .idle none [] 0))).aborted = none ∧ encode .clr = .stream [0x0C] ∧
    liveAt (lone (.rtc (clock .idle none [] 0))) (lone (.rtc (clock .idle none [] 0))).focus
      (only (.rtc (clock .idle none [] 0))) := by decide

theorem witness_ParserRunsTheDecodedCommand :
    (∀ i ∈ [Instr.bs, .print20 0, .escInit, .usImage 1 0 2 0 1 [1, 2], .usWinDefine 1 1 [1, 2, 3, 4, 5, 6, 7, 8]],
      WellFormed i) ∧
    encode (.usImage 1 0 2 0 1 [1, 2]) = .stream [0x1F, 0x28, 0x66, 0x11, 1, 0, 2, 0, 1, 1, 2] ∧
    addressed (lone (.display (screen 6 8))) (lone (.display (screen 6 8))).focus (only (.display (screen 6 8))) 0x50 ∧
    (lone (.display (screen 6 8))).cfg.cmdTable = defaultCommandTable ∧
    (lone (.display (screen 6 8))).cfg.dispBusyUs = none ∧ (screen 6 8).phase = .receiving ∧
    (screen 6 8).pstate = .idle ∧ parserEmpty (screen 6 8) := by decide

/-- Bytes next to the control bytes and the ends of the range; a prefix that stops matching at its third byte. -/
theorem witness_UnrecognisedBytesAreLoggedAndDropped :
    addressed (lone (.display (screen 6 8))) 0 (only (.display (screen 6 8))) 0x50 ∧ (screen 6 8).phase = .receiving ∧
    (∀ b ∈ [(0x00 : Byte), 0x07, 0x0E, 0x1E], b.toNat < 0x20 ∧ b ∉ [(0x08 : Byte), 0x09, 0x0A, 0x0B, 0x0C, 0x0D] ∧
      ∀ r ∈ tiny.cmdTable, r.key.head? ≠ some b) ∧
    addressed (lone (.display { screen 6 8 with pstate := .collectingCommandPrefix, pfx := [0x1F, 0x28] })) 0
      (only (.display { screen 6 8 with pstate := .collectingCommandPrefix, pfx := [0x1F, 0x28] })) 0x50 ∧
    (∀ r ∈ tiny.cmdTable, ¬ ([0x1F, 0x28] ++ [0x99]) <+: r.key) := by decide

theorem witness_BusyPulsePerStreamByte :
    addressed { lone (.display (screen 6 8)) with cfg := { tiny with dispBusyUs := some 20 } } 0
      (only (.display (screen 6 8))) 0x50 ∧ (screen 6 8).phase = .receiving ∧
    (pulsing 320).aborted = none ∧ (pulsing 320).inbox = [.fire 3] ∧
    (pulsing 320).pending.find? (fun x => x.id == 3) =
      some { id := 3, owner := 0, fireAt := 320, payload := .busyEnd, periodic := none } ∧
    320 ≤ (pulsing 320).now ∧ (∀ x ∈ (pulsing 320).pending, 320 ≤ x.fireAt) ∧
    liveAt (pulsing 320) 0 (only (.display { screen 6 8 with busy := true, busyTimer := some 3 })) := by decide

theorem witness_PixelsChangeOnlyByDrawing :
    (∃ t, exec (.stop 0 0x50 false) (lone (.display (screen 6 8))) = .next t ∧
      t.devices[0]? = some (only (.display (Display.reset (screen 6 8))))) ∧
    printByte? (.stop 0 0x50 false) = none ∧ Instr.stop 0 0x50 false ≠ .clr ∧
    Instr.stop 0 0x50 false ≠ .escInit ∧ (lone (.display (screen 6 8))).devices[0]? = some (only (.display (screen 6 8))) :=
  ⟨⟨_, rfl, by decide⟩, by decide, by decide, by decide, by decide⟩

theorem witness_LedctlSelects :
    focused (lone (.led (lights .addressPhase none false))) (only (.led (lights .addressPhase none false))) ∧
    (0x1B : BitVec 5).toNat ≤ 0x1B ∧ 0x1B < (0x1C : BitVec 5).toNat := by decide

theorem witness_EeaddrSetsThePointer :
    focused (lone (.eeprom (eeprom .idle none none))) (only (.eeprom (eeprom .idle none none))) := by decide

/-- Halted; before the counter wraps; at the wrap, with the square wave low and high. -/
theorem witness_TickOfTheClock :
    ∀ d ∈ [clock .idle none [0x80, 0, 0, 1, 1, 1, 0, 0] 32767, clock .idle none newYearsEve 32766,
        clock .idle none newYearsEve 32767, { clock .idle none newYearsEve 32767 with sqwLevel := true, sqwPin := true }],
      (ticking d).aborted = none ∧ (ticking d).inbox = [.fire 0] ∧
      (ticking d).pending.find? (fun x => x.id == 0) =
        some { id := 0, owner := 0, fireAt := 488, payload := .rtcTick, periodic := some 488 } ∧
      488 ≤ (ticking d).now ∧ (∀ x ∈ (ticking d).pending, 488 ≤ x.fireAt) ∧ liveAt (ticking d) 0 (only (.rtc d)) := by
  decide

/-- Every carry taken, and a 12-hour clock. -/
theorem witness_SecondIsTheNextOnTheClock :
    8 ≤ newYearsEve.length ∧ timeWf newYearsEve = true ∧ timeWf [0x59, 0x59, 0x72, 7, 0x31, 0x12, 0x99, 0] = true := by
  decide

theorem witness_IllFormedTimeKeepsItsOtherBits :
    8 ≤ [(0x5A : Byte), 0x5A, 0x53, 0, 0, 0, 0xAA, 0].length ∧
    rtcTwelveHour [0x5A, 0x5A, 0x53, 0, 0, 0, 0xAA, 0] = true ∧ hourWf 0x53 = false := by decide

theorem witness_OneSecondIs32768Ticks :
    8 ≤ (clock .dataRead (some 7) newYearsEve 5).core.regs.length ∧ rtcHalted newYearsEve = false ∧
    timeWf newYearsEve = true ∧ rtcHalted [0x80, 0, 0, 1, 1, 1, 0, 0] = true := by decide

/-- No code; a full FIFO; one place left, with interrupts disabled and enabled. -/
theorem witness_KeyEventQueued :
    (given (.addKeyRawEvent 0 0x80) (lone (.keypad (keys .idle none 0 0 [])))).aborted = none ∧
    (0x80 : Byte).extractLsb' 0 7 = 0 ∧ (0x81 : Byte).extractLsb' 0 7 ≠ 0 ∧
    (∀ d ∈ [keys .idle none 0 10 (List.replicate 10 0x81), keys .idle none 0 9 (List.replicate 9 0x81),
        keys .idle none 1 9 (List.replicate 9 0x81)],
      liveAt (given (.addKeyRawEvent 0 0x81) (lone (.keypad d))) 0 (only (.keypad d))) ∧
    kpCount (keys .idle none 0 10 (List.replicate 10 0x81)).core.regs = 10 ∧
    kpCount (keys .idle none 0 9 (List.replicate 9 0x81)).core.regs = 9 ∧
    kpInterruptEnabled (keys .idle none 0 9 (List.replicate 9 0x81)).core.regs = false ∧
    kpInterruptEnabled (keys .idle none 1 9 (List.replicate 9 0x81)).core.regs = true := by decide

/-- The last key and the first row and column beyond it; a release that has just come due; the highest code. -/
theorem witness_KeyCallsBecomeRawEvents :
    (given (.addKeyEvent 0 true 1 9) (lone (.keypad (keys .idle none 0 0 [])))).aborted = none ∧
    (1 < tiny.kpRows ∧ 9 < tiny.kpCols) ∧ ¬ (2 < tiny.kpRows) ∧ ¬ (10 < tiny.kpCols) ∧
    (held 800).aborted = none ∧ (held 800).pending.find? (fun x => x.id == 7) =
      some { id := 7, owner := 0, fireAt := 800, payload := .keyRelease 1, periodic := none } ∧
    800 ≤ (held 800).now ∧ (∀ x ∈ (held 800).pending, 800 ≤ x.fireAt) ∧
    liveAt (given (.fire 7) (held 800)) 0 (only (.keypad { keys .idle none 1 0 [] with pendingRelease := [(1, 7)] })) ∧
    12 * 10 + 6 + 1 ≤ 127 := by decide

/-- The last key; the first key, whose release is already pending. -/
theorem witness_PressAndReleaseSchedulesOneRelease :
    (given (.addKeyPressAndRelease 0 0 0) (held 400)).aborted = none ∧
    liveAt (given (.addKeyPressAndRelease 0 0 0) (held 400)) 0
      (only (.keypad { keys .idle none 1 0 [] with pendingRelease := [(1, 7)] })) ∧
    0 < tiny.kpRows ∧ 0 < tiny.kpCols ∧ 1 < tiny.kpRows ∧ 9 < tiny.kpCols := by decide

/-- The line released by an acknowledge; the line taken by an event, and by a release that comes due. -/
theorem witness_InterruptLineMovesOnlyByItsRules :
    (∃ t d', step (given (.operation [] 0 (.busOut 0x01A01000)) (lone (.keypad (rung .dataWrite (some 2))))) = .next t ∧
      t.devices[0]? = some (only (.keypad d')) ∧ d'.intN = true) ∧ (rung .dataWrite (some 2)).intN = false ∧
    (∃ t d', step (given (.addKeyRawEvent 0 0x98) (lone (.keypad (keys .idle none 1 0 [])))) = .next t ∧
      t.devices[0]? = some (only (.keypad d')) ∧ d'.intN = false) ∧ (keys .idle none 1 0 []).intN = true ∧
    (∃ t d', step (given (.fire 7) (held 800)) = .next t ∧ t.devices[0]? = some (only (.keypad d')) ∧ d'.intN = false) :=
  ⟨⟨_, _, rfl, rfl, rfl⟩, rfl, ⟨_, _, rfl, rfl, rfl⟩, rfl, ⟨_, _, rfl, rfl, rfl⟩⟩

/-- Not pending; one cycle too soon; behind an earlier one. -/
theorem witness_TimerFiresOnlyWhatIsDueFirst :
    (held 799).pending.find? (fun x => x.id == 6) = none ∧
    ((held 799).pending.find? (fun x => x.id == 7)).any (fun a => decide ((held 799).now < a.fireAt)) = true ∧
    (∃ x ∈ [(⟨3, 0, 799, .keyRelease 2, none⟩ : PendingAction), ⟨7, 0, 800, .keyRelease 1, none⟩], x.fireAt < 800) := by
  decide

theorem witness_TranscriptOfAWrite :
    (lone (.display (screen 0 0))).aborted = none ∧ (lone (.display (screen 0 0))).openTx = none ∧
    (∃ t, runAll [.startW 0 0x50, .write 0x0C 0x50 false, .stop 0 0x50 false] (lone (.display (screen 0 0))) = .next t) ∧
    noMatch (lone (.display (screen 0 0))) 0x51 := ⟨by decide, by decide, ⟨_, rfl⟩, by decide⟩

/-- Channels 0 to 2 in modes 1, 2 and 0; channel 15 in mode 3. -/
theorem witness_LedDutyArray :
    (∀ regs ∈ [List.replicate 20 (0 : Byte) ++ [0x09, 0, 0, 0, 0, 0, 0, 0],
        List.replicate 20 0 ++ [0x09, 0, 0, 0xC0, 0, 0, 0, 0]],
      liveAt (given (.getCurrentState 0) (lone (.led { core := core .idle none regs, autoinc := false }))) 0
        (only (.led { core := core .idle none regs, autoinc := false }))) ∧
    (∀ n < 16, (regRead (List.replicate 20 0 ++ [0x09, 0, 0, 0, 0, 0, 0, 0]) (0x14 + n / 4)).toNat / 2 ^ (2 * (n % 4)) % 4 ≠ 3) ∧
    (∀ m < 15, (regRead (List.replicate 20 0 ++ [0x09, 0, 0, 0xC0, 0, 0, 0, 0]) (0x14 + m / 4)).toNat / 2 ^ (2 * (m % 4)) % 4
      ≠ 3) ∧
    (regRead (List.replicate 20 0 ++ [0x09, 0, 0, 0xC0, 0, 0, 0, 0]) (0x14 + 15 / 4)).toNat / 2 ^ (2 * (15 % 4)) % 4 = 3 := by
  decide

theorem witness_DestroyedDeviceIsGone :
    liveAt (given (.destroy 0) (held 400)) 0 (only (.keypad { keys .idle none 1 0 [] with pendingRelease := [(1, 7)] })) ∧
    (∃ t, step (given (.addKeyRawEvent 0 0x98)
      { held 400 with devices := [{ only (.keypad (keys .idle none 1 0 [])) with live := false }] }) = .next t) :=
  ⟨by decide, _, rfl⟩

/-- From the last register on. -/
theorem witness_AutoIncrementWritesInOrder :
    addressed (lone (.rtc (clock .dataWrite (some 7) newYearsEve 0))) 0
      (only (.rtc (clock .dataWrite (some 7) newYearsEve 0))) 0x50 ∧ 7 ≤ tiny.rtcLast ∧
    addressed (lone (.led (lights .dataWrite (some 0x1B) true))) 0 (only (.led (lights .dataWrite (some 0x1B) true)))
      0x50 ∧
    addressed (lone (.keypad (rung .dataWrite (some 0x2E)))) 0 (only (.keypad (rung .dataWrite (some 0x2E)))) 0x50 := by
  decide

/-- Up to the last address, and no byte at all from the first address beyond it. -/
theorem witness_EepromTransactions :
    addressed (lone (.eeprom (eeprom .dataRead none (some 3)))) 0 (only (.eeprom (eeprom .dataRead none (some 3)))) 0x50 ∧
    14 = 256 * (0 : Byte).toNat + (14 : Byte).toNat ∧ 14 + [(1 : Byte), 2].length ≤ tiny.eeSize ∧
    16 = 256 * (0 : Byte).toNat + (16 : Byte).toNat ∧ 16 + 0 ≤ tiny.eeSize := by decide

theorem witness_EepromChangesOnlyByDataWrites :
    ∃ t d', step (given (.operation [] 0 (.busOut 0x11A01000)) (lone (.eeprom (eeprom .dataWrite none (some 3))))) =
      .next t ∧ t.devices[0]? = some (only (.eeprom d')) ∧
      memRead d'.buf 3 ≠ memRead (eeprom .dataWrite none (some 3)).buf 3 := ⟨_, _, rfl, rfl, by decide⟩

end Sys2Proof.Tests
end

section
/-! PROOFS. Which instruction a step runs (R6, R43, R48), and the invariant of the block after construction (R311). -/

namespace Sys2Proof.Machine

/-! ## The arrival of an encoded operation -/

/-- A step takes the next move out of `inbox` and makes it. -/
theorem step_cons (s : State) (e : HostEvent) (rest : List HostEvent) (h : s.inbox = e :: rest) :
    step s = State.event { s with inbox := rest } e := by
  simp only [step, State.stepOnce, h]

/-- Bits that decode run as the instruction they stand for. -/
theorem run_of_decode_ok (s : State) (enc : Encoded) (i : Instr) (h : decode enc = .ok i) : s.run enc = exec i s := by
  simp only [State.run, h]

theorem step_operation (s : State) (order : List Nat) (focus : Nat) (enc : Encoded) (rest : List HostEvent) (i : Instr)
    (hin : s.inbox = .operation order focus enc :: rest) (hdec : decode enc = .ok i) :
    step s = exec i { s with inbox := rest, order := order, focus := focus } := by
  rw [step_cons s _ rest hin]
  exact run_of_decode_ok { s with inbox := rest, order := order, focus := focus } enc i hdec

theorem decodeTableWord_eq_some (nbits w : Nat) (i : Instr) :
    decodeTableWord nbits w = some i ↔ decode (tableEncoded nbits w) = .ok i := by
  unfold decodeTableWord
  cases decode (tableEncoded nbits w) <;> simp

/-- Settles O1: the arrival of bits that decode, and for a table word the same arrival placed before the other moves. -/
theorem stepRunsDecodedInstruction : Obligations.StepRunsDecodedInstruction :=
  ⟨step_operation, fun s nbits w i h =>
    step_operation (s.withFetchWord nbits w) s.order _ _ s.inbox i rfl ((decodeTableWord_eq_some nbits w i).mp h)⟩

/-! ## A device just constructed (R32) -/

/-- A two-phase device in Idle with nothing selected is consistent, whatever the registers hold. -/
theorem coreOk_fresh (last : Nat) (regs : List Byte) (h : regs.length = last + 1) : coreOk last (.fresh regs) :=
  ⟨h, rfl, by simp [RegCore.fresh], fun _ => rfl⟩

theorem rtcOk_constructed (c : Config) (timer : Nat) : rtcOk c (.constructed c timer) :=
  ⟨coreOk_fresh _ _ (by simp), rfl⟩

theorem eepromOk_constructed (c : Config) (hwf : Memory.wf c.eeInit) (hsize : ∀ e ∈ c.eeInit, e.1 < c.eeSize) :
    eepromOk c (.constructed c) :=
  ⟨hwf, hsize, rfl, by simp [Eeprom.constructed], by simp [Eeprom.constructed], fun _ => rfl⟩

theorem keypadOk_constructed : keypadOk .constructed := by decide

theorem ledOk_constructed : ledOk .constructed := coreOk_fresh _ _ (by simp)

/-- The cursor at the origin is on the screen because the screen has a pixel. -/
theorem displayOk_constructed (c : Config) (hw : 1 ≤ c.dispW) (hh : 1 ≤ c.dispH) : displayOk c (.constructed c) := by
  refine ⟨hw, hh, ?_, ?_, ?_, ?_, ?_, ?_, ?_, ?_, ?_, fun _ => rfl⟩ <;>
    simp [Display.constructed, blankPixels, blankText, parserOk]

theorem deviceOk_constructed (c : Config) (timer : Nat) (kind : DeviceKind) (hc : configOk c) :
    deviceOk c (.constructed c timer kind) = true := by
  obtain ⟨-, -, -, -, -, -, -, hwf, hsize, -, -, hw, hh, -⟩ := hc
  cases kind with
  | rtc => exact decide_eq_true (rtcOk_constructed c timer)
  | eeprom => exact decide_eq_true (eepromOk_constructed c hwf hsize)
  | keypad => exact decide_eq_true keypadOk_constructed
  | led => exact decide_eq_true ledOk_constructed
  | display => exact decide_eq_true (displayOk_constructed c hw hh)

/-- Only an RTC needs an action: its recurring tick (R134). -/
theorem timersOk_constructed (c : Config) (timer k : Nat) (kind : DeviceKind) (pending : List PendingAction)
    (h : kind = .rtc → ∃ a ∈ pending, a.id = timer ∧ a.owner = k ∧ a.payload = .rtcTick ∧ a.periodic.isSome = true) :
    timersOk pending k (.constructed c timer kind) = true := by
  cases kind with
  | rtc =>
    obtain ⟨a, ha, hid, howner, hpayload, hperiodic⟩ := h rfl
    exact List.any_eq_true.mpr ⟨a, ha, by simp [Rtc.constructed, hid, howner, hpayload, hperiodic]⟩
  | eeprom | keypad | led | display => rfl

/-- More pending actions do not take away the ones a device has a handle on. -/
theorem timersOk_mono (p q : List PendingAction) (k : Nat) (st : DevState) (hpq : p ⊆ q)
    (h : timersOk p k st = true) : timersOk q k st = true := by
  have any_mono (f : PendingAction → Bool) (hf : p.any f = true) : q.any f = true := by
    obtain ⟨a, ha, hfa⟩ := List.any_eq_true.mp hf
    exact List.any_eq_true.mpr ⟨a, hpq ha, hfa⟩
  cases st with
  | rtc d => exact any_mono _ h
  | keypad d =>
    simp only [timersOk, List.all_eq_true] at h ⊢
    exact fun e he => any_mono _ (h e he)
  | display d =>
    simp only [timersOk, Bool.and_eq_true, Option.all_eq_true] at h ⊢
    obtain ⟨hbusy, htimer⟩ := h
    exact ⟨hbusy, fun t ht => any_mono _ (htimer t ht)⟩
  | led d | eeprom d => rfl

/-! ## Attaching a device (R311) -/

/-- The device that attaching `spec` constructs. -/
def State.newDevice (s : State) (spec : DeviceSpec) : Device :=
  { addrs := spec.addrs, live := true, st := .constructed s.cfg s.nextId spec.kind }

/-- The recurring tick of an RTC that is attached now (R272). -/
def State.newTick (s : State) : PendingAction :=
  { id := s.nextId, owner := s.devices.length, fireAt := s.now + s.cfg.rtcTickPeriod, payload := .rtcTick,
    periodic := some s.cfg.rtcTickPeriod }

theorem attach_rtc (s : State) (spec : DeviceSpec) (h : spec.kind = .rtc) :
    s.attach spec = { s with
      devices := s.devices ++ [s.newDevice spec], pending := s.pending ++ [s.newTick], nextId := s.nextId + 1 } := by
  simp [State.attach, constructDevice, State.newDevice, State.newTick, h]

theorem attach_other (s : State) (spec : DeviceSpec) (h : spec.kind ≠ .rtc) :
    s.attach spec = { s with devices := s.devices ++ [s.newDevice spec] } := by
  simp [State.attach, constructDevice, State.newDevice, h]

@[simp] theorem attach_cfg (s : State) (spec : DeviceSpec) : (s.attach spec).cfg = s.cfg := rfl
@[simp] theorem attach_finished (s : State) (spec : DeviceSpec) : (s.attach spec).finished = s.finished := rfl

@[simp] theorem attach_devices (s : State) (spec : DeviceSpec) :
    (s.attach spec).devices = s.devices ++ [s.newDevice spec] := by
  by_cases h : spec.kind = .rtc
  · rw [attach_rtc s spec h]
  · rw [attach_other s spec h]

theorem pending_subset_attach (s : State) (spec : DeviceSpec) : s.pending ⊆ (s.attach spec).pending := by
  by_cases h : spec.kind = .rtc
  · rw [attach_rtc s spec h]
    exact List.subset_append_left _ _
  · rw [attach_other s spec h]
    exact List.Subset.refl _

/-- The devices that were live stay live. -/
theorem liveDevice?_attach_old (s : State) (spec : DeviceSpec) (k : Nat) (h : (s.liveDevice? k).isSome = true) :
    ((s.attach spec).liveDevice? k).isSome = true := by
  obtain ⟨dev, hdev⟩ := Option.isSome_iff_exists.mp h
  obtain ⟨hk, hlive⟩ := (liveDevice?_eq_some s k dev).mp hdev
  have hlt : k < s.devices.length := (List.getElem?_eq_some_iff.mp hk).1
  have hnew : (s.attach spec).liveDevice? k = some dev :=
    (liveDevice?_eq_some _ k dev).mpr ⟨by rw [attach_devices, List.getElem?_append_left hlt, hk], hlive⟩
  simp [hnew]

theorem liveDevice?_attach_new (s : State) (spec : DeviceSpec) :
    (s.attach spec).liveDevice? s.devices.length = some (s.newDevice spec) :=
  (liveDevice?_eq_some _ _ _).mpr ⟨by simp, rfl⟩

/-- The new tick has an identifier of its own and a live owner; the actions before it keep theirs. -/
theorem attach_keeps_pendingOk (s : State) (spec : DeviceSpec) (h : pendingOk s) : pendingOk (s.attach spec) := by
  obtain ⟨hnodup, hfresh, howner, hperiodic⟩ := h
  have howner' : ∀ a ∈ s.pending, ((s.attach spec).liveDevice? a.owner).isSome = true :=
    fun a ha => liveDevice?_attach_old s spec a.owner (howner a ha)
  by_cases hk : spec.kind = .rtc
  · have hnew : ((s.attach spec).liveDevice? s.newTick.owner).isSome = true := by
      simp [State.newTick, liveDevice?_attach_new]
    have hids : ∀ x ∈ s.pending, x.id ≠ s.newTick.id := fun a ha => (hfresh a ha).ne
    rw [attach_rtc s spec hk] at howner' hnew ⊢
    refine ⟨?_, ?_, ?_, ?_⟩
    · simpa [List.nodup_append, hnodup] using hids
    · exact List.forall_mem_append.mpr ⟨fun a ha => (hfresh a ha).trans (Nat.lt_succ_self _), by simp [State.newTick]⟩
    · exact List.forall_mem_append.mpr ⟨howner', List.forall_mem_singleton.mpr hnew⟩
    · exact List.forall_mem_append.mpr ⟨hperiodic, List.forall_mem_singleton.mpr (.inl rfl)⟩
  · rw [attach_other s spec hk] at howner' ⊢
    exact ⟨hnodup, hfresh, howner', hperiodic⟩

/-- An RTC's recurring tick is pending right after it is attached (R134, R311). -/
theorem timersOk_newDevice (s : State) (spec : DeviceSpec) :
    timersOk (s.attach spec).pending s.devices.length (s.newDevice spec).st = true := by
  refine timersOk_constructed s.cfg s.nextId s.devices.length spec.kind _ fun hk => ⟨s.newTick, ?_, rfl, rfl, rfl, rfl⟩
  simp [attach_rtc s spec hk]

theorem attach_keeps_inv (s : State) (spec : DeviceSpec) (h : s.Inv) : (s.attach spec).Inv := by
  obtain ⟨hcfg, hpending, hfinished, hdevices⟩ := h
  refine ⟨hcfg, attach_keeps_pendingOk s spec hpending, hfinished, fun k hk => ?_⟩
  simp only [attach_devices, attach_cfg]
  by_cases hold : k < s.devices.length
  · obtain ⟨hdev, htimers⟩ := hdevices k hold
    rw [List.getElem_append_left hold]
    exact ⟨hdev, fun hlive => timersOk_mono _ _ k _ (pending_subset_attach s spec) (htimers hlive)⟩
  · have hlast : k = s.devices.length := by
      rw [attach_devices, List.length_append, List.length_singleton] at hk
      omega
    subst hlast
    rw [List.getElem_concat_length rfl]
    exact ⟨deviceOk_constructed s.cfg s.nextId spec.kind hcfg, fun _ => timersOk_newDevice s spec⟩

/-! ## The whole block -/

/-- Construction of the block attaches its devices one after the other. -/
theorem launched_concat (c : Config) (specs : List DeviceSpec) (spec : DeviceSpec) (now : Nat) :
    State.launched c (specs ++ [spec]) now = (State.launched c specs now).attach spec := by
  simp [State.launched, State.attach, constructAll]

theorem launched_nil_inv (c : Config) (now : Nat) (hc : configOk c) : (State.launched c [] now).Inv := by
  refine ⟨hc, ⟨?_, ?_, ?_, ?_⟩, Nat.zero_le _, ?_⟩ <;> simp [State.launched, constructAll]

/-- Settles O6, by induction on the list of devices from its end: no device, and one more attached. -/
theorem invariantAfterLaunch : Obligations.InvariantAfterLaunch := by
  intro c specs now hc
  induction specs using List.reverseRecOn with
  | nil => exact launched_nil_inv c now hc
  | append_singleton specs spec ih =>
    rw [launched_concat]
    exact attach_keeps_inv _ spec ih

end Sys2Proof.Machine
end

section
/-! PROOFS. The invariant at reset and the values after construction (R32), and where BS moves the cursor (R232). -/

namespace Sys2Proof.Machine

/-! ## The invariant at reset -/

theorem configOk_launch : configOk Config.launch := by decide

/-- Settles O5: reset is a launch with a configuration R4 allows. -/
theorem invariantAtReset : Obligations.InvariantAtReset :=
  invariantAfterLaunch Config.launch launchDevices 0 configOk_launch

/-! ## The devices and the ticks of a launched block (R32) -/

@[simp] theorem launched_length (c : Config) (specs : List DeviceSpec) (now : Nat) :
    (State.launched c specs now).devices.length = specs.length := by
  induction specs using List.reverseRecOn with
  | nil => rfl
  | append_singleton specs spec ih => rw [launched_concat, attach_devices]; simp [ih]

/-- The device at each position is the constructed one of its kind, whatever identifier its tick has. -/
theorem launched_device (c : Config) (specs : List DeviceSpec) (now k : Nat) (hk : k < specs.length) :
    ∃ timer, (State.launched c specs now).devices[k]? =
      some { addrs := (specs[k]).addrs, live := true, st := .constructed c timer (specs[k]).kind } := by
  induction specs using List.reverseRecOn with
  | nil => simp at hk
  | append_singleton specs spec ih =>
    rw [launched_concat, attach_devices]
    by_cases hlt : k < specs.length
    · obtain ⟨timer, hdev⟩ := ih hlt
      exact ⟨timer, by simpa [List.getElem?_append_left, List.getElem_append_left, hlt] using hdev⟩
    · have hlast : k = specs.length := by
        rw [List.length_append, List.length_singleton] at hk
        omega
      exact ⟨_, by simp [hlast, State.newDevice]; rfl⟩

/-- `pending` is one recurring tick per RTC, first due one period after the cycle counter (R272). -/
def OneTickPerRtc (s : State) : Prop :=
  ∀ a : PendingAction, a ∈ s.pending ↔ ∃ k dev d, s.devices[k]? = some dev ∧ dev.st = .rtc d ∧
    a = { id := d.timer, owner := k, fireAt := s.now + s.cfg.rtcTickPeriod, payload := .rtcTick,
          periodic := some s.cfg.rtcTickPeriod }

/-- A constructed device is an RTC exactly if its kind is RTC, and then it holds its tick's identifier. -/
theorem constructed_eq_rtc (c : Config) (timer : Nat) (kind : DeviceKind) (d : Rtc) :
    DevState.constructed c timer kind = .rtc d ↔ kind = .rtc ∧ Rtc.constructed c timer = d := by
  cases kind <;> simp [DevState.constructed]

/-- The devices after one more is attached: the old ones and the new one behind them. -/
theorem attach_device_eq_some (s : State) (spec : DeviceSpec) (k : Nat) (dev : Device) :
    (s.attach spec).devices[k]? = some dev ↔
      s.devices[k]? = some dev ∨ k = s.devices.length ∧ s.newDevice spec = dev := by
  rw [attach_devices, List.getElem?_append]
  rcases lt_trichotomy k s.devices.length with hlt | rfl | hgt
  · simp [hlt, hlt.ne]
  · simp
  · simp [hgt.not_gt, hgt.ne', Nat.sub_ne_zero_of_lt hgt]

theorem mem_attach_pending (s : State) (spec : DeviceSpec) (a : PendingAction) :
    a ∈ (s.attach spec).pending ↔ a ∈ s.pending ∨ spec.kind = .rtc ∧ a = s.newTick := by
  by_cases hk : spec.kind = .rtc
  · simp [attach_rtc s spec hk, hk]
  · simp [attach_other s spec hk, hk]

theorem attach_oneTickPerRtc (s : State) (spec : DeviceSpec) (h : OneTickPerRtc s) :
    OneTickPerRtc (s.attach spec) := by
  intro a
  have hnow : (s.attach spec).now = s.now := rfl
  rw [mem_attach_pending, h a, hnow, attach_cfg]
  constructor
  · rintro (⟨k, dev, d, hdev, hst, ha⟩ | ⟨hkind, ha⟩)
    · exact ⟨k, dev, d, (attach_device_eq_some s spec k dev).mpr (.inl hdev), hst, ha⟩
    · exact ⟨_, _, _, (attach_device_eq_some s spec _ _).mpr (.inr ⟨rfl, rfl⟩),
        (constructed_eq_rtc _ _ _ _).mpr ⟨hkind, rfl⟩, ha⟩
  · rintro ⟨k, dev, d, hdev, hst, ha⟩
    rcases (attach_device_eq_some s spec k dev).mp hdev with hold | ⟨rfl, rfl⟩
    · exact .inl ⟨k, dev, d, hold, hst, ha⟩
    · obtain ⟨hkind, rfl⟩ := (constructed_eq_rtc _ _ _ _).mp hst
      exact .inr ⟨hkind, ha⟩

theorem launched_oneTickPerRtc (c : Config) (specs : List DeviceSpec) (now : Nat) :
    OneTickPerRtc (State.launched c specs now) := by
  induction specs using List.reverseRecOn with
  | nil => intro a; simp [State.launched, constructAll]
  | append_singleton specs spec ih =>
    rw [launched_concat]
    exact attach_oneTickPerRtc _ spec ih

/-- RTC_INIT fills the file; what its list does not hold is 0x00 (log 2). -/
theorem regRead_rtc_constructed (c : Config) (timer i : Nat) (hi : i ≤ c.rtcLast) :
    regRead (Rtc.constructed c timer).core.regs i = c.rtcInit.getD i 0 := by
  simp [regRead, Rtc.constructed, RegCore.fresh, Nat.lt_succ_of_le hi]

/-- Settles O8: the block's own fields stand in `State.launched`, each device is the constructed one of its kind. -/
theorem constructionValues : Obligations.ConstructionValues := by
  rintro c specs now s rfl
  refine ⟨rfl, rfl, rfl, rfl, rfl, rfl, rfl, launched_length c specs now, launched_oneTickPerRtc c specs now,
    fun k hk => ?_⟩
  obtain ⟨timer, hdev⟩ := launched_device c specs now k hk
  refine ⟨_, hdev, ?_⟩
  cases (specs[k]).kind with
  | rtc =>
    exact ⟨_, rfl, rfl, rfl, by simp [Rtc.constructed, RegCore.fresh],
      fun i hi => regRead_rtc_constructed c timer i hi, rfl, rfl, rfl⟩
  | keypad => exact ⟨_, rfl, rfl, rfl, rfl, rfl, rfl, rfl, rfl⟩
  | led => exact ⟨_, rfl, rfl, rfl, rfl, rfl⟩
  | eeprom => exact ⟨_, rfl, rfl, rfl, rfl, rfl⟩
  | display => exact ⟨_, rfl, rfl, rfl, ⟨rfl, rfl, rfl, rfl, rfl, rfl⟩, rfl, rfl, rfl, rfl, rfl, rfl, rfl, rfl⟩

/-! ## BS on the display in focus -/

@[simp] theorem env_cfg (s : State) : s.env.cfg = s.cfg := rfl
@[simp] theorem env_draws (s : State) : s.env.draws = s.draws := rfl

/-- A display operation on the display in focus is its reaction. -/
theorem onDisplay_focused (s : State) (dev : Device) (d : Display) (f : Env → Display → Display × List Effect)
    (hlive : liveAt s s.focus dev) (hst : dev.st = .display d) :
    s.onDisplay f =
      (f s.env d).2.foldl (State.perform s.focus) (s.withDevice s.focus dev (.display (f s.env d).1)) := by
  unfold State.onDisplay
  simp only [show s.liveDevice? s.focus = some dev from hlive, hst]
  rfl

theorem unlessAborted_of_none (s : State) (f : State → State) (h : s.aborted = none) :
    s.unlessAborted f = .next (f s) := by
  unfold State.unlessAborted; rw [h]

theorem execBs_focused (s : State) (dev : Device) (d : Display) (h : focused s dev) (hst : dev.st = .display d) :
    exec .bs s = .next ((d.backspace s.env).2.foldl (State.perform s.focus)
      (s.withDevice s.focus dev (.display (d.backspace s.env).1))) := by
  obtain ⟨hab, hlive⟩ := h
  have hexec : exec .bs s = s.unlessAborted (fun s => s.onDisplay (fun env d => d.backspace env)) := rfl
  rw [hexec, unlessAborted_of_none s _ hab, onDisplay_focused s dev d _ hlive hst]

/-- The device put back as it was. -/
theorem withDevice_same (s : State) (k : Nat) (dev : Device) (h : liveAt s k dev) : s.withDevice k dev dev.st = s :=
  setDevice_same s k dev ((liveDevice?_eq_some s k dev).mp h).1

/-- Settles O31: the four branches of BS, the last with a column the model draws freely (log 14). -/
theorem backspace : Obligations.Backspace := by
  intro s dev d gw gh hf hst hgw hgh
  have hexec := execBs_focused s dev d hf hst
  have hw : d.gw s.cfg = gw := hgw.symm
  have hh : d.gh s.cfg = gh := hgh.symm
  simp only [Display.backspace, env_cfg, env_draws, hw, hh] at hexec
  refine ⟨fun hleft => ?_, fun hcx hcy hfits => ?_, fun hcx hcy => ?_, fun hcx hcy hwide hdisp => ?_⟩
  · simpa only [if_pos hleft, List.foldl_nil] using hexec
  · simpa only [if_neg hcx.not_ge, if_pos hcy, if_pos hfits, List.foldl_nil] using hexec
  · rw [hexec]
    simp only [if_neg hcx.not_ge, if_neg hcy.not_ge, List.foldl_nil, ← hst, withDevice_same s _ dev hf.2]
  · refine ⟨Config.freeColumn s.draws % s.cfg.dispW, Nat.mod_lt _ hdisp, ?_⟩
    simp only [if_neg hcx.not_ge, if_pos hcy, if_neg hwide.not_ge] at hexec
    exact hexec

end Sys2Proof.Machine
end

section
/-! PROOFS. What one step can do: the moves of the agents, and what an encoded operation runs (R6, R43, R48). -/

namespace Sys2Proof.Machine

theorem unlessAborted_eq_next (s t : State) (f : State → State) :
    s.unlessAborted f = .next t ↔ s.aborted = none ∧ t = f s := by
  unfold State.unlessAborted
  cases s.aborted <;> simp [eq_comm]

/-! ## A word on the bus -/

/-- The operation of a well-framed message delivers that message: its framing condition and its direction are all
there is to it (R64). -/
theorem exec_messageInstr (m : BusMessage) (i : Instr) (s : State) (h : messageInstr m = .ok i) :
    exec i s = s.unlessAborted (fun s => s.deliver m) := by
  rcases m with ⟨address, rnw, data, start, stop, write, read⟩
  cases start <;> cases stop <;> cases write <;> cases read <;> cases rnw <;> cases h <;> rfl

/-- A word on BUS_OUT is delivered as the message it decodes to, be it well framed or MALFORMED (R62, R64). -/
theorem run_busOut (s : State) (w : BusWord) :
    s.run (.busOut w) = s.unlessAborted (fun s => s.deliver (decodeMessage w)) := by
  unfold State.run
  split
  · rename_i i hi
    exact exec_messageInstr _ i s hi
  · rfl

/-- A word on BUS_IN is a reply, or changes nothing (R66). -/
theorem run_busIn (s : State) (w : BusWord) :
    ∃ reply : State → State, s.run (.busIn w) = s.unlessAborted reply ∧
      ((∃ w', reply = fun s => s.emitBusIn w') ∨ reply = id) := by
  unfold State.run decode decodeBusIn
  by_cases hack : (w.getLsbD 11 && !(decodeMessage w).conditions.start && !(decodeMessage w).conditions.stop &&
    !(decodeMessage w).conditions.write) = true
  · simp only [if_pos hack]
    cases (decodeMessage w).conditions.read
    · exact ⟨_, rfl, .inl ⟨_, rfl⟩⟩
    · exact ⟨_, rfl, .inl ⟨_, rfl⟩⟩
  · simp only [if_neg hack]
    exact ⟨_, rfl, .inr rfl⟩

/-! ## The display's operations -/

/-- What an instruction of the display does to the display in focus (R228 to R243); the others are no such
instruction. -/
def Instr.onScreen? : Instr → Option (Env → Display → Display × List Effect)
  | .bs => some fun env d => d.backspace env
  | .ht => some fun env d => (d.advance env.cfg, [])
  | .lf => some fun env d => (d.lineFeed env.cfg, [])
  | .hom => some fun _ d => (d.home, [])
  | .clr => some fun env d => (d.clear env.cfg, [])
  | .cr => some fun _ d => (d.carriageReturn, [])
  | .print20 c => some fun env d => (d.print env.cfg (print20Byte c), [])
  | .print40 c => some fun env d => (d.print env.cfg (print40Byte c), [])
  | .print80 c => some fun env d => (d.print env.cfg (print80Byte c), [])
  | .escInit => some fun env d => (d.initialise env.cfg, [])
  | .usCursor xL xH yL yH => some fun env d => d.setCursor env.cfg xL xH yL yH [0x1F, 0x24, xL, xH, yL, yH]
  | .usMag x y => some fun _ d => d.setMag x y [0x1F, 0x28, 0x67, 0x40, x, y]
  | .usImage xL xH yL yH _ payload => some fun _ d => (d.image xL xH yL yH payload, [])
  | .usScroll _ _ _ _ _ | .usBlink _ _ _ _ | .usWinSelect _ | .usWinDefine _ _ _ => some fun _ d => (d.stub, [])
  | .startW _ _ | .startR _ _ | .write _ _ _ | .read _ _ _ | .stop _ _ _ | .ack _ _ _ | .ackRead _ _ _
  | .ledctl _ _ | .eeaddr _ _ => none

theorem exec_onScreen (i : Instr) (f : Env → Display → Display × List Effect) (s : State)
    (h : Instr.onScreen? i = some f) : exec i s = s.unlessAborted (fun s => s.onDisplay f) := by
  cases i <;> cases h <;> rfl

theorem controlInstr_onScreen (b : Byte) (i : Instr) (h : controlInstr b = some i) :
    (Instr.onScreen? i).isSome = true := by
  unfold controlInstr at h
  (repeat' split at h) <;> cases h <;> rfl

theorem printInstr_onScreen (b : Byte) : (Instr.onScreen? (printInstr b)).isSome = true := by
  unfold printInstr
  (repeat' split) <;> rfl

theorem commandInstr_onScreen (c : DisplayCommand) (fixed varArgs : List Byte) :
    (Instr.onScreen? (commandInstr c fixed varArgs)).isSome = true := by
  cases c <;> rfl

/-- The bytes of a display stream decode to instructions of the display only (R72). -/
theorem decodeStream_onScreen (bytes : List Byte) (i : Instr) (rest : List Byte)
    (h : decodeStream bytes = .ok (i, rest)) : (Instr.onScreen? i).isSome = true := by
  unfold decodeStream at h
  split at h
  · cases h
  · split at h
    · rename_i b _ _ _ hi
      cases h
      exact controlInstr_onScreen b i hi
    · split at h
      · cases h
        exact printInstr_onScreen _
      · unfold decodeCommand at h
        split at h
        · dsimp only at h
          (repeat' split at h) <;> cases h
          exact commandInstr_onScreen _ _ _
        · split at h <;> cases h

/-- A display operation of the model: an instruction's, or the record of bytes nothing begins with (R223, R224). -/
inductive ScreenOp : (Env → Display → Display × List Effect) → Prop
  | instr (i : Instr) (f : Env → Display → Display × List Effect) (h : Instr.onScreen? i = some f) : ScreenOp f
  | unrecognized (bytes : List Byte) : ScreenOp (fun _ d => (d, [.log bytes]))

/-- Display bytes given as one operation run an operation on the display in focus, or change nothing. -/
theorem run_stream (s : State) (bytes : List Byte) :
    ∃ act : State → State, s.run (.stream bytes) = s.unlessAborted act ∧
      ((∃ f, ScreenOp f ∧ act = fun s => s.onDisplay f) ∨ act = id) := by
  unfold State.run
  split
  · rename_i i hi
    have hdecoded : ∃ rest, decodeStream bytes = .ok (i, rest) := by
      unfold decode at hi
      dsimp only at hi
      split at hi <;> cases hi
      exact ⟨[], by assumption⟩
    obtain ⟨rest, hrest⟩ := hdecoded
    obtain ⟨f, hf⟩ := Option.isSome_iff_exists.mp (decodeStream_onScreen bytes i rest hrest)
    exact ⟨_, exec_onScreen i f s hf, .inl ⟨f, .instr i f hf, rfl⟩⟩
  · rename_i why _
    cases why with
    | unrecognized => exact ⟨_, rfl, .inl ⟨_, .unrecognized bytes, rfl⟩⟩
    | malformedMessage | notAReply | incomplete | trailing | ledSubRange => exact ⟨_, rfl, .inr rfl⟩

/-- An address-selection byte reaches the LED driver in focus, also one whose bits 6:5 are not 0 (R70, R207). -/
theorem run_ledSelect (s : State) (b : Byte) :
    ∃ b', s.run (.ledSelect b) = s.unlessAborted (fun s => s.ledSelectByte b') := by
  unfold State.run
  split
  · rename_i i hi
    simp only [decode, decodeLedctl] at hi
    split at hi <;> cases hi
    exact ⟨_, rfl⟩
  · exact ⟨b, rfl⟩

/-! ## What an encoded operation runs -/

/-- What an operation does to an unaborted state: a delivery, a reply, an operation on the device in focus, or
nothing. -/
inductive Ran (s : State) : Encoded → State → Prop
  | delivered (w : BusWord) : Ran s (.busOut w) (s.deliver (decodeMessage w))
  | replied (w r : BusWord) : Ran s (.busIn w) (s.emitBusIn r)
  | onDisplay (bytes : List Byte) (f : Env → Display → Display × List Effect) (hf : ScreenOp f) :
      Ran s (.stream bytes) (s.onDisplay f)
  | ledSelect (b b' : Byte) : Ran s (.ledSelect b) (s.ledSelectByte b')
  | eeAddress (hi lo : Byte) : Ran s (.eeAddress hi lo) (s.eeAddressBytes hi lo)
  | ignored (enc : Encoded) : Ran s enc s

theorem run_cases (s t : State) (enc : Encoded) (h : s.run enc = .next t) : s.aborted = none ∧ Ran s enc t := by
  cases enc with
  | busOut w =>
    rw [run_busOut, unlessAborted_eq_next] at h
    obtain ⟨hab, rfl⟩ := h
    exact ⟨hab, .delivered w⟩
  | busIn w =>
    obtain ⟨reply, hrun, hreply⟩ := run_busIn s w
    rw [hrun, unlessAborted_eq_next] at h
    obtain ⟨hab, rfl⟩ := h
    rcases hreply with ⟨r, rfl⟩ | rfl
    · exact ⟨hab, .replied w r⟩
    · exact ⟨hab, .ignored _⟩
  | stream bytes =>
    obtain ⟨act, hrun, hact⟩ := run_stream s bytes
    rw [hrun, unlessAborted_eq_next] at h
    obtain ⟨hab, rfl⟩ := h
    rcases hact with ⟨f, hf, rfl⟩ | rfl
    · exact ⟨hab, .onDisplay bytes f hf⟩
    · exact ⟨hab, .ignored _⟩
  | ledSelect b =>
    obtain ⟨b', hrun⟩ := run_ledSelect s b
    rw [hrun, unlessAborted_eq_next] at h
    obtain ⟨hab, rfl⟩ := h
    exact ⟨hab, .ledSelect b b'⟩
  | eeAddress hi lo =>
    obtain ⟨hab, rfl⟩ := (unlessAborted_eq_next s t (fun s => s.eeAddressBytes hi lo)).mp h
    exact ⟨hab, .eeAddress hi lo⟩

/-! ## The moves of the agents -/

/-- The harness calls on the keypad at position `k` and what they do there (R180, R181, R183). -/
inductive KeyCall : HostEvent → Nat → (Env → Keypad → Keypad × List Effect) → Prop
  | event (k : Nat) (press : Bool) (row col : Nat) :
      KeyCall (.addKeyEvent k press row col) k (fun env d => d.addEvent env.cfg press row col)
  | raw (k : Nat) (b : Byte) : KeyCall (.addKeyRawEvent k b) k (fun _ d => d.addRawEvent b)
  | pressAndRelease (k row col : Nat) :
      KeyCall (.addKeyPressAndRelease k row col) k (fun env d => d.pressAndRelease env row col)
  | pressAndReleaseCode (k code : Nat) :
      KeyCall (.addKeyPressAndReleaseCode k code) k (fun env d =>
        if code = 0 then (d, []) else d.pressAndRelease env (keyRow code) (keyCol code))

/-- What a move does to an unaborted state. -/
inductive Moved (s : State) : HostEvent → State → Prop
  | operation (order : List Nat) (focus : Nat) (enc : Encoded) (t : State)
      (h : Ran { s with order := order, focus := focus } enc t) : Moved s (.operation order focus enc) t
  | advance (cycles : Nat) : Moved s (.advance cycles) (s.advance cycles)
  | fire (id : Nat) : Moved s (.fire id) (s.fire id)
  | keyCall (e : HostEvent) (k : Nat) (f : Env → Keypad → Keypad × List Effect) (h : KeyCall e k f) :
      Moved s e (s.onKeypad k f)
  | answered (e : HostEvent) (l : List Answer) : Moved s e { s with answers := s.answers ++ l }
  | raised (e : HostEvent) (k : Nat) (c : Cause) (info : FaultInfo) : Moved s e (s.raiseFatal k c info)
  | registered (e : HostEvent) (callback : Nat) : Moved s e { s with onComplete := some callback }
  | attached (spec : DeviceSpec) : Moved s (.attach spec) (s.attach spec)
  | destroyed (k : Nat) : Moved s (.destroy k) (s.destroy k)

/-- An accessor that answers nothing. -/
theorem Moved.unanswered (s : State) (e : HostEvent) : Moved s e s := by
  simpa using Moved.answered (s := s) e []

theorem getCurrentState_moved (s : State) (e : HostEvent) (k : Nat) : Moved s e (s.getCurrentState k) := by
  unfold State.getCurrentState
  split
  · split
    · split
      · exact .answered e _
      · exact .raised e k _ _
    all_goals exact .unanswered s e
  · exact .unanswered s e

theorem snapshot_moved (s : State) (e : HostEvent) (k : Nat) : Moved s e (s.snapshot k) := by
  unfold State.snapshot
  split
  · split
    case h_5 => exact .unanswered s e
    all_goals exact .answered e _
  · exact .unanswered s e

theorem moved_of_next {s t : State} {e : HostEvent} {act : State → State}
    (h : s.unlessAborted act = .next t) (hmoved : Moved s e (act s)) : s.aborted = none ∧ Moved s e t := by
  obtain ⟨hab, rfl⟩ := (unlessAborted_eq_next s t act).mp h
  exact ⟨hab, hmoved⟩

theorem event_cases (s t : State) (e : HostEvent) (h : s.event e = .next t) : s.aborted = none ∧ Moved s e t := by
  cases e with
  | operation order focus enc =>
    obtain ⟨hab, hran⟩ := run_cases _ t enc h
    exact ⟨hab, .operation order focus enc t hran⟩
  | advance cycles =>
    rw [State.event] at h
    exact moved_of_next h (.advance cycles)
  | fire id =>
    rw [State.event] at h
    exact moved_of_next h (.fire id)
  | addKeyEvent k press row col =>
    rw [State.event] at h
    exact moved_of_next h (.keyCall _ k _ (.event k press row col))
  | addKeyRawEvent k b =>
    rw [State.event] at h
    exact moved_of_next h (.keyCall _ k _ (.raw k b))
  | addKeyPressAndRelease k row col =>
    rw [State.event] at h
    exact moved_of_next h (.keyCall _ k _ (.pressAndRelease k row col))
  | addKeyPressAndReleaseCode k code =>
    rw [State.event] at h
    exact moved_of_next h (.keyCall _ k _ (.pressAndReleaseCode k code))
  | getCurrentState k =>
    rw [State.event] at h
    exact moved_of_next h (getCurrentState_moved s _ k)
  | getFinishedMessages =>
    rw [State.event] at h
    exact moved_of_next h (.answered _ _)
  | snapshot k =>
    rw [State.event] at h
    exact moved_of_next h (snapshot_moved s _ k)
  | registerOnComplete callback =>
    rw [State.event] at h
    exact moved_of_next h (.registered _ callback)
  | attach spec =>
    rw [State.event] at h
    exact moved_of_next h (.attached spec)
  | destroy k =>
    rw [State.event] at h
    exact moved_of_next h (.destroyed k)

/-- A step waits, or takes the next move out of `inbox` and makes it. -/
theorem step_cases (s t : State) (h : step s = .next t) :
    t = s ∨ ∃ e rest, s.inbox = e :: rest ∧ Moved { s with inbox := rest } e t := by
  cases hin : s.inbox with
  | nil =>
    simp only [step, State.stepOnce, hin, unlessAborted_eq_next] at h
    exact .inl h.2
  | cons e rest =>
    rw [step_cons s e rest hin] at h
    exact .inr ⟨e, rest, rfl, (event_cases _ t e h).2⟩

end Sys2Proof.Machine
end

section
/-! PROOFS. Which device an operation reaches and how it answers, and what no step takes back (R28, R30, R33, R271). -/

namespace Sys2Proof.Machine

/-! ## Operations on one device: its reaction, or nothing -/

theorem onDisplay_cases (s : State) (f : Env → Display → Display × List Effect) :
    s.onDisplay f = s ∨ ∃ dev d, liveAt s s.focus dev ∧ dev.st = .display d ∧
      s.onDisplay f = s.react s.focus dev (.done (.display (f s.env d).1) (f s.env d).2) := by
  unfold State.onDisplay
  split
  · rename_i dev hlive
    split
    · rename_i d hst
      exact .inr ⟨dev, d, hlive, hst, rfl⟩
    all_goals exact .inl rfl
  · exact .inl rfl

theorem onKeypad_cases (s : State) (k : Nat) (f : Env → Keypad → Keypad × List Effect) :
    s.onKeypad k f = s ∨ ∃ dev d, liveAt s k dev ∧ dev.st = .keypad d ∧
      s.onKeypad k f = s.react k dev (.done (.keypad (f s.env d).1) (f s.env d).2) := by
  unfold State.onKeypad
  split
  · rename_i dev hlive
    split
    · rename_i d hst
      exact .inr ⟨dev, d, hlive, hst, rfl⟩
    all_goals exact .inl rfl
  · exact .inl rfl

theorem ledSelectByte_cases (s : State) (b : Byte) :
    s.ledSelectByte b = s ∨ ∃ dev d, liveAt s s.focus dev ∧ dev.st = .led d ∧
      s.ledSelectByte b = s.react s.focus dev ((ledPlugs.onAddress s.ab b d).map .led) := by
  unfold State.ledSelectByte
  split
  · rename_i dev hlive
    split
    · rename_i d hst
      exact .inr ⟨dev, d, hlive, hst, rfl⟩
    all_goals exact .inl rfl
  · exact .inl rfl

theorem eeAddressBytes_cases (s : State) (hi lo : Byte) :
    s.eeAddressBytes hi lo = s ∨ ∃ dev d, liveAt s s.focus dev ∧ dev.st = .eeprom d ∧
      s.eeAddressBytes hi lo = s.react s.focus dev ((d.address s.ab hi lo).map .eeprom) := by
  unfold State.eeAddressBytes
  split
  · rename_i dev hlive
    split
    · rename_i d hst
      exact .inr ⟨dev, d, hlive, hst, rfl⟩
    all_goals exact .inl rfl
  · exact .inl rfl

/-- A due action reaches its owner as the tick of an RTC, the release of a keypad's key or the end of a display's
pulse (R274). -/
inductive Due (env : Env) : DevState → Payload → DevState → List Effect → Prop
  | tick (d : Rtc) : Due env (.rtc d) .rtcTick (.rtc (rtcTick env d).1) (rtcTick env d).2
  | release (d : Keypad) (code : Nat) :
      Due env (.keypad d) (.keyRelease code) (.keypad (d.releaseFire code).1) (d.releaseFire code).2
  | pulseEnd (d : Display) : Due env (.display d) .busyEnd (.display d.busyEnd.1) d.busyEnd.2

/-- A device that holds no state for the payload ignores the action. -/
theorem callback_cases (s : State) (a : PendingAction) :
    (s.callback a = s ∧ ∀ dev st es, liveAt s a.owner dev → ¬ Due s.env dev.st a.payload st es) ∨
    ∃ dev st es, liveAt s a.owner dev ∧ Due s.env dev.st a.payload st es ∧
      s.callback a = s.react a.owner dev (.done st es) := by
  unfold State.callback
  split
  · rename_i dev hlive
    split
    · rename_i d hp hst
      exact .inr ⟨dev, _, _, hlive, hp ▸ hst ▸ .tick d, rfl⟩
    · rename_i code d hp hst
      exact .inr ⟨dev, _, _, hlive, hp ▸ hst ▸ .release d code, rfl⟩
    · rename_i d hp hst
      exact .inr ⟨dev, _, _, hlive, hp ▸ hst ▸ .pulseEnd d, rfl⟩
    · rename_i htick hrelease hpulse
      refine .inl ⟨rfl, fun dev' st es hlive' hdue => ?_⟩
      obtain rfl : dev = dev' := Option.some.inj (hlive.symm.trans hlive')
      generalize hst : dev.st = st0 at hdue
      generalize hp : a.payload = p at hdue
      cases hdue with
      | tick d => exact htick d hp hst
      | release d code => exact hrelease code d hp hst
      | pulseEnd d => exact hpulse d hp hst
  · rename_i hnone
    exact .inl ⟨rfl, fun dev st es hlive => absurd (hlive.symm.trans hnone) (by simp)⟩

/-- What fires is pending and due (R274). -/
theorem fire_cases (s : State) (id : Nat) :
    s.fire id = s ∨ ∃ a ∈ s.pending, a.id = id ∧ a.fireAt ≤ s.now ∧ s.fire id = (s.takeAction a).callback a := by
  unfold State.fire
  split
  · rename_i a ha
    split
    · rename_i hmay
      have hid : (a.id == id) = true := List.find?_some (p := fun a : PendingAction => a.id == id) ha
      simp only [State.mayFire, Bool.and_eq_true, decide_eq_true_eq] at hmay
      obtain ⟨hdue, -⟩ := hmay
      exact .inr ⟨a, List.mem_of_find?_eq_some ha, beq_iff_eq.mp hid, hdue, rfl⟩
    · exact .inl rfl
  · exact .inl rfl

theorem adapter_cases (s : State) (m : BusMessage) (k : Nat) :
    s.adapter m k = s ∨ ∃ dev, liveAt s k dev ∧ s.adapter m k = s.react k dev (dev.respond s.env m) := by
  unfold State.adapter
  split
  · rename_i dev hlive
    exact .inr ⟨dev, hlive, rfl⟩
  · exact .inl rfl

theorem subscriber_cases (s : State) (m : BusMessage) (k : Nat) :
    s.subscriber m k = s ∨ s.subscriber m k = s.listenOut m ∨ s.subscriber m k = s.adapter m k := by
  unfold State.subscriber
  split
  · exact .inl rfl
  · split
    · exact .inr (.inl rfl)
    · exact .inr (.inr rfl)

theorem Reaction.map_eq_done {δ ε : Type} (f : δ → ε) (r : Reaction δ) (e : ε) (es : List Effect) :
    r.map f = .done e es ↔ ∃ d, r = .done d es ∧ f d = e := by
  cases r <;> simp [Reaction.map, and_comm]

/-- A device that answers without a fault has handled the message it accepts, and reset its protocol after a STOP
(R93, R97), or has ignored one it does not accept, but for the reset a START brings (R92). -/
theorem respond_eq_done (env : Env) (m : BusMessage) (dev : Device) (st : DevState) (es : List Effect)
    (h : dev.respond env m = .done st es) :
    (dev.accepts m.address = true ∧ ∃ st', dev.st.handle env m = .done st' es ∧ (st = st' ∨ st = st'.reset)) ∨
    es = [] ∧ (st = dev.st ∨ st = dev.st.reset) := by
  unfold Device.respond at h
  split at h
  · rename_i hacc
    unfold DevState.matched at h
    split at h
    · cases h
    · obtain ⟨st', hhandle, hst⟩ := (Reaction.map_eq_done _ _ _ _).mp h
      exact .inl ⟨hacc, st', hhandle, .inr hst.symm⟩
    all_goals exact .inl ⟨hacc, st, h, .inl rfl⟩
  · unfold DevState.unmatched at h
    cases h
    refine .inr ⟨rfl, ?_⟩
    split
    · exact .inr rfl
    · exact .inl rfl

/-! ## The kind of a device (R294) -/

@[simp] theorem reset_kind (st : DevState) : st.reset.kind = st.kind := by cases st <;> rfl

@[simp] theorem released_kind (st : DevState) : st.released.kind = st.kind := by cases st <;> rfl

/-- Every state the reaction answers is of this kind. -/
def Reaction.OfKind (r : Reaction DevState) (kind : DeviceKind) : Prop := ∀ st es, r = .done st es → st.kind = kind

theorem Reaction.done_ofKind (st : DevState) (es : List Effect) : (Reaction.done st es).OfKind st.kind := by
  rintro _ _ ⟨⟩
  rfl

theorem Reaction.map_ofKind {δ : Type} (r : Reaction δ) (f : δ → DevState) (kind : DeviceKind)
    (h : ∀ d, (f d).kind = kind) : (r.map f).OfKind kind := by
  intro st es hr
  obtain ⟨d, -, rfl⟩ := (Reaction.map_eq_done f r st es).mp hr
  exact h d

theorem handle_kind (env : Env) (m : BusMessage) (st : DevState) : (st.handle env m).OfKind st.kind := by
  cases st with
  | rtc d | eeprom d | keypad d | led d | display d => exact Reaction.map_ofKind _ _ _ fun _ => rfl

theorem respond_kind (env : Env) (m : BusMessage) (dev : Device) : (dev.respond env m).OfKind dev.st.kind := by
  intro st es h
  rcases respond_eq_done env m dev st es h with ⟨-, st', hhandle, rfl | rfl⟩ | ⟨-, rfl | rfl⟩
  · exact handle_kind env m dev.st st es hhandle
  · rw [reset_kind]
    exact handle_kind env m dev.st st' es hhandle
  · rfl
  · exact reset_kind dev.st

theorem due_kind (env : Env) (st st' : DevState) (p : Payload) (es : List Effect) (h : Due env st p st' es) :
    st'.kind = st.kind := by cases h <;> rfl

/-! ## What is only added to -/

/-- The same device later: its predicate and its kind are kept, and what was destroyed stays destroyed (R312). -/
def Device.Continues (dev dev' : Device) : Prop :=
  dev'.addrs = dev.addrs ∧ dev'.st.kind = dev.st.kind ∧ (dev.live = false → dev'.live = false)

theorem Device.Continues.refl (dev : Device) : dev.Continues dev := ⟨rfl, rfl, id⟩

theorem Device.Continues.trans {a b c : Device} (hab : a.Continues b) (hbc : b.Continues c) : a.Continues c := by
  obtain ⟨haddrs, hkind, hdead⟩ := hab
  obtain ⟨haddrs', hkind', hdead'⟩ := hbc
  exact ⟨haddrs'.trans haddrs, hkind'.trans hkind, hdead' ∘ hdead⟩

/-- `t` comes after `s`: nothing recorded in `s` is lost in `t`. -/
structure Grows (s t : State) : Prop where
  trace   : s.trace <+: t.trace
  dbglog  : s.dbglog <+: t.dbglog
  calls   : s.calls <+: t.calls
  answers : s.answers <+: t.answers
  now     : s.now ≤ t.now
  nextId  : s.nextId ≤ t.nextId
  cfg     : t.cfg = s.cfg
  devices : ∀ (k : Nat) (dev : Device), s.devices[k]? = some dev →
    ∃ dev', t.devices[k]? = some dev' ∧ dev.Continues dev'

/-- A change of state that leaves the devices alone, and each record as it was unless another proof is given. -/
theorem Grows.of_devices_eq {s t : State} (hdevices : t.devices = s.devices) (hcfg : t.cfg = s.cfg := by rfl)
    (htrace : s.trace <+: t.trace := by exact List.prefix_refl _)
    (hdbglog : s.dbglog <+: t.dbglog := by exact List.prefix_refl _)
    (hcalls : s.calls <+: t.calls := by exact List.prefix_refl _)
    (hanswers : s.answers <+: t.answers := by exact List.prefix_refl _)
    (hnow : s.now ≤ t.now := by exact Nat.le_refl _) (hnextId : s.nextId ≤ t.nextId := by exact Nat.le_refl _) :
    Grows s t :=
  ⟨htrace, hdbglog, hcalls, hanswers, hnow, hnextId, hcfg, fun _ dev h => ⟨dev, hdevices ▸ h, .refl dev⟩⟩

theorem Grows.refl (s : State) : Grows s s := .of_devices_eq rfl

theorem Grows.trans {s t u : State} (hst : Grows s t) (htu : Grows t u) : Grows s u where
  trace := hst.trace.trans htu.trace
  dbglog := hst.dbglog.trans htu.dbglog
  calls := hst.calls.trans htu.calls
  answers := hst.answers.trans htu.answers
  now := hst.now.trans htu.now
  nextId := hst.nextId.trans htu.nextId
  cfg := htu.cfg.trans hst.cfg
  devices k dev h := by
    obtain ⟨dev', h', hc⟩ := hst.devices k dev h
    obtain ⟨dev'', h'', hc'⟩ := htu.devices k dev' h'
    exact ⟨dev'', h'', hc.trans hc'⟩

theorem Grows.foldl {α : Type} (f : State → α → State) (hf : ∀ s x, Grows s (f s x)) (l : List α) (s : State) :
    Grows s (l.foldl f s) := by
  induction l generalizing s with
  | nil => exact .refl s
  | cons x l ih => exact (hf s x).trans (ih (f s x))

theorem perform_grows (k : Nat) (s : State) (e : Effect) : Grows s (s.perform k e) := by
  cases e with
  | reply w => exact .of_devices_eq rfl (htrace := List.prefix_append _ _)
  | pin p level => exact .of_devices_eq rfl (htrace := List.prefix_append _ _)
  | log bytes => exact .of_devices_eq rfl (hdbglog := List.prefix_append _ _)
  | schedule delayUs payload => exact .of_devices_eq rfl (hnextId := Nat.le_succ _)
  | cancel id => exact .of_devices_eq rfl
  | drew n => exact .of_devices_eq rfl

theorem setDevice_grows (s : State) (k : Nat) (dev dev' : Device) (h : s.devices[k]? = some dev)
    (hc : dev.Continues dev') : Grows s (s.setDevice k dev') where
  trace := List.prefix_refl _
  dbglog := List.prefix_refl _
  calls := List.prefix_refl _
  answers := List.prefix_refl _
  now := Nat.le_refl _
  nextId := Nat.le_refl _
  cfg := rfl
  devices j old hj := by
    by_cases hjk : k = j
    · subst hjk
      obtain rfl : dev = old := Option.some.inj (h.symm.trans hj)
      have hlt := (List.getElem?_eq_some_iff.mp h).1
      exact ⟨dev', by simp [hlt], hc⟩
    · exact ⟨old, by simp [hjk, hj], .refl old⟩

/-- A reaction that keeps the kind of its device takes nothing back. -/
theorem react_grows (s : State) (k : Nat) (dev : Device) (r : Reaction DevState) (hlive : liveAt s k dev)
    (hkind : r.OfKind dev.st.kind) : Grows s (s.react k dev r) := by
  obtain ⟨hdev, -⟩ := (liveDevice?_eq_some s k dev).mp hlive
  cases r with
  | done st es =>
    have hset := setDevice_grows s k dev { dev with st := st } hdev ⟨rfl, hkind st es rfl, id⟩
    exact hset.trans (.foldl _ (perform_grows k) es _)
  | raise c info => exact .of_devices_eq rfl

theorem onDisplay_grows (s : State) (f : Env → Display → Display × List Effect) : Grows s (s.onDisplay f) := by
  rcases onDisplay_cases s f with h | ⟨dev, d, hlive, hst, h⟩ <;> rw [h]
  · exact .refl s
  · exact react_grows s _ dev _ hlive (hst ▸ Reaction.done_ofKind _ _)

theorem onKeypad_grows (s : State) (k : Nat) (f : Env → Keypad → Keypad × List Effect) :
    Grows s (s.onKeypad k f) := by
  rcases onKeypad_cases s k f with h | ⟨dev, d, hlive, hst, h⟩ <;> rw [h]
  · exact .refl s
  · exact react_grows s k dev _ hlive (hst ▸ Reaction.done_ofKind _ _)

theorem ledSelectByte_grows (s : State) (b : Byte) : Grows s (s.ledSelectByte b) := by
  rcases ledSelectByte_cases s b with h | ⟨dev, d, hlive, hst, h⟩ <;> rw [h]
  · exact .refl s
  · exact react_grows s _ dev _ hlive (hst ▸ Reaction.map_ofKind _ _ _ fun _ => rfl)

theorem eeAddressBytes_grows (s : State) (hi lo : Byte) : Grows s (s.eeAddressBytes hi lo) := by
  rcases eeAddressBytes_cases s hi lo with h | ⟨dev, d, hlive, hst, h⟩ <;> rw [h]
  · exact .refl s
  · exact react_grows s _ dev _ hlive (hst ▸ Reaction.map_ofKind _ _ _ fun _ => rfl)

theorem callback_grows (s : State) (a : PendingAction) : Grows s (s.callback a) := by
  rcases callback_cases s a with ⟨h, -⟩ | ⟨dev, st, es, hlive, hdue, h⟩ <;> rw [h]
  · exact .refl s
  · exact react_grows s _ dev _ hlive (due_kind _ _ _ _ _ hdue ▸ Reaction.done_ofKind st es)

theorem fire_grows (s : State) (id : Nat) : Grows s (s.fire id) := by
  rcases fire_cases s id with h | ⟨a, -, -, -, h⟩ <;> rw [h]
  · exact .refl s
  · exact (Grows.of_devices_eq (s := s) (t := s.takeAction a) rfl).trans (callback_grows _ a)

theorem calls_prefix_txCall (o : Option Transaction) (callback : Option Nat) (calls : List (Nat × Transaction)) :
    calls <+: txCall o callback calls := by
  unfold txCall
  split
  · exact List.prefix_append _ _
  · exact List.prefix_refl _

theorem listenOut_grows (s : State) (m : BusMessage) : Grows s (s.listenOut m) := by
  unfold State.listenOut
  split
  · exact .of_devices_eq rfl
  · split
    · exact .of_devices_eq rfl (hcalls := calls_prefix_txCall _ _ _)
    · split
      · exact .of_devices_eq rfl
      · exact .refl s

theorem adapter_grows (s : State) (m : BusMessage) (k : Nat) : Grows s (s.adapter m k) := by
  rcases adapter_cases s m k with h | ⟨dev, hlive, h⟩ <;> rw [h]
  · exact .refl s
  · exact react_grows s k dev _ hlive (respond_kind _ m dev)

theorem subscriber_grows (m : BusMessage) (s : State) (k : Nat) : Grows s (s.subscriber m k) := by
  rcases subscriber_cases s m k with h | h | h <;> rw [h]
  · exact .refl s
  · exact listenOut_grows s m
  · exact adapter_grows s m k

theorem deliver_grows (s : State) (m : BusMessage) : Grows s (s.deliver m) :=
  (Grows.of_devices_eq (s := s) (t := { s with ab := m.ab }) rfl).trans (.foldl _ (subscriber_grows m) _ _)

theorem attach_grows (s : State) (spec : DeviceSpec) : Grows s (s.attach spec) where
  trace := List.prefix_refl _
  dbglog := List.prefix_refl _
  calls := List.prefix_refl _
  answers := List.prefix_refl _
  now := Nat.le_refl _
  nextId := by
    by_cases hk : spec.kind = .rtc
    · simp [attach_rtc s spec hk]
    · simp [attach_other s spec hk]
  cfg := rfl
  devices k dev h := ⟨dev, (attach_device_eq_some s spec k dev).mpr (.inl h), .refl dev⟩

theorem destroy_grows (s : State) (k : Nat) : Grows s (s.destroy k) := by
  unfold State.destroy
  split
  · rename_i dev hlive
    obtain ⟨hdev, -⟩ := (liveDevice?_eq_some s k dev).mp hlive
    have hset : Grows s (s.setDevice k { dev with live := false, st := dev.st.released }) :=
      setDevice_grows s k dev _ hdev ⟨rfl, released_kind dev.st, fun _ => rfl⟩
    exact hset.trans (.of_devices_eq rfl)
  · exact .refl s

theorem ran_grows (s t : State) (enc : Encoded) (h : Ran s enc t) : Grows s t := by
  cases h with
  | delivered w => exact deliver_grows s _
  | replied w r => exact perform_grows 0 s (.reply r)
  | onDisplay bytes f hf => exact onDisplay_grows s f
  | ledSelect b b' => exact ledSelectByte_grows s b'
  | eeAddress hi lo => exact eeAddressBytes_grows s hi lo
  | ignored => exact .refl s

theorem moved_grows (s t : State) (e : HostEvent) (h : Moved s e t) : Grows s t := by
  cases h with
  | operation order focus enc t hran =>
    have hplaced : Grows s { s with order := order, focus := focus } := .of_devices_eq rfl
    exact hplaced.trans (ran_grows _ t enc hran)
  | advance cycles => exact .of_devices_eq rfl (hnow := Nat.le_add_right _ _)
  | fire id => exact fire_grows s id
  | keyCall e k f hcall => exact onKeypad_grows s k f
  | answered e l => exact .of_devices_eq rfl (hanswers := List.prefix_append _ _)
  | raised e k c info => exact .of_devices_eq rfl
  | registered e callback => exact .of_devices_eq rfl
  | attached spec => exact attach_grows s spec
  | destroyed k => exact destroy_grows s k

theorem step_grows (s t : State) (h : step s = .next t) : Grows s t := by
  rcases step_cases s t h with rfl | ⟨e, rest, -, hmoved⟩
  · exact .refl t
  · exact (Grows.of_devices_eq (s := s) (t := { s with inbox := rest }) rfl).trans (moved_grows _ t e hmoved)

/-- Settles O11: every move of the agents only adds, and a device is only ever replaced by its own next state. -/
theorem historyOnlyGrows : Obligations.HistoryOnlyGrows := by
  intro s t h
  obtain ⟨htrace, hdbglog, hcalls, hanswers, hnow, hnextId, hcfg, hdevices⟩ := step_grows s t h
  exact ⟨htrace, hdbglog, hcalls, hanswers, hnow, hnextId, hcfg, hdevices⟩

end Sys2Proof.Machine
end

section
/-! PROOFS. When the interrupt line of a keypad moves (R181, R188, R192). -/

namespace Sys2Proof.Machine

/-! ## Register files -/

@[simp] theorem length_regWrite (regs : List Byte) (i : Nat) (v : Byte) : (regWrite regs i v).length = regs.length := by
  simp [regWrite]

theorem regRead_regWrite_other (regs : List Byte) (i j : Nat) (v : Byte) (h : i ≠ j) :
    regRead (regWrite regs i v) j = regRead regs j := by
  simp [regRead, regWrite, List.getD_eq_getElem?_getD, h]

theorem regRead_regWrite_same (regs : List Byte) (i : Nat) (v : Byte) (h : i < regs.length) :
    regRead (regWrite regs i v) i = v := by
  simp [regRead, regWrite, List.getD_eq_getElem?_getD, h]

/-! ## One device through a change of state -/

/-- A reaction changes its own device only, and only if it is no fault. -/
theorem react_device (s : State) (k j : Nat) (dev old new : Device) (r : Reaction DevState) (hlive : liveAt s k dev)
    (hold : s.devices[j]? = some old) (hnew : (s.react k dev r).devices[j]? = some new) :
    new = old ∨ j = k ∧ old = dev ∧ ∃ st es, r = .done st es ∧ new = { dev with st := st } := by
  by_cases hjk : j = k
  · subst hjk
    obtain ⟨hdev, -⟩ := (liveDevice?_eq_some s j dev).mp hlive
    obtain rfl : dev = old := Option.some.inj (hdev.symm.trans hold)
    cases r with
    | done st es =>
      have hlt := (List.getElem?_eq_some_iff.mp hdev).1
      refine .inr ⟨rfl, rfl, st, es, rfl, ?_⟩
      simpa [react_done, hlt, eq_comm] using hnew
    | raise c info => exact .inl (Option.some.inj (hnew.symm.trans hold))
  · rw [react_devices_other s k j dev r hjk] at hnew
    exact .inl (Option.some.inj (hnew.symm.trans hold))

theorem subscriber_device_self (s : State) (m : BusMessage) (k : Nat) (dev new : Device)
    (hold : s.devices[k]? = some dev) (hnew : (s.subscriber m k).devices[k]? = some new) :
    new = dev ∨ dev.live = true ∧ ∃ env st es, dev.respond env m = .done st es ∧ new = { dev with st := st } := by
  have same (t : State) (ht : t.devices = s.devices) (h : t.devices[k]? = some new) : new = dev :=
    Option.some.inj (h.symm.trans (ht ▸ hold))
  rcases subscriber_cases s m k with h | h | h <;> rw [h] at hnew
  · exact .inl (same s rfl hnew)
  · exact .inl (same _ (listenOut_devices s m) hnew)
  · rcases adapter_cases s m k with h | ⟨dev', hlive, h⟩ <;> rw [h] at hnew
    · exact .inl (same s rfl hnew)
    · rcases react_device s k k dev' dev new _ hlive hold hnew with h | ⟨-, rfl, st, es, hr, h⟩
      · exact .inl h
      · exact .inr ⟨((liveDevice?_eq_some s k dev).mp hlive).2, _, st, es, hr, h⟩

theorem foldl_subscriber_other (m : BusMessage) (k : Nat) (ks : List Nat) (s : State) (h : k ∉ ks) :
    (ks.foldl (State.subscriber m) s).devices[k]? = s.devices[k]? := by
  induction ks generalizing s with
  | nil => rfl
  | cons j ks ih =>
    obtain ⟨hkj, hks⟩ := not_or.mp (List.mem_cons.not.mp h)
    rw [List.foldl_cons, ih _ hks, subscriber_devices_other s m j k hkj]

/-- A message reaches a device once, whatever the order of the subscribers. -/
theorem deliver_device (s : State) (m : BusMessage) (k : Nat) (dev new : Device) (hold : s.devices[k]? = some dev)
    (hnew : (s.deliver m).devices[k]? = some new) :
    new = dev ∨ dev.live = true ∧ ∃ env st es, dev.respond env m = .done st es ∧ new = { dev with st := st } := by
  have hlt : k < s.devices.length := (List.getElem?_eq_some_iff.mp hold).1
  have hmem : k ∈ deliveryOrder s.devices.length s.order := (mem_deliveryOrder _ _ k).mpr hlt.le
  obtain ⟨before, after, horder⟩ := List.append_of_mem hmem
  have hnodup := deliveryOrder_nodup s.devices.length s.order
  rw [horder] at hnodup
  have hbefore : k ∉ before := fun h => (List.nodup_append.mp hnodup).2.2 k h k List.mem_cons_self rfl
  have hafter : k ∉ after := (List.nodup_cons.mp (List.nodup_append.mp hnodup).2.1).1
  rw [State.deliver, horder, List.foldl_append, List.foldl_cons, foldl_subscriber_other m k after _ hafter] at hnew
  exact subscriber_device_self _ m k dev new
    ((foldl_subscriber_other m k before { s with ab := m.ab } hbefore).trans hold) hnew

/-! ## What a two-phase device does with a message -/

/-- The messages a two-phase device takes, and what it does with each (R111 to R117). -/
inductive Plugs.Takes {δ : Type} (p : Plugs δ) (m : BusMessage) (d : δ) : δ → List Effect → Prop
  | startW (hkind : m.kind = .startW) : p.Takes m d (p.toPhase d .addressPhase) [ackOnly m.ab]
  | startR (hkind : m.kind = .startR) (hsel : (p.core d).sel.isSome = true) :
      p.Takes m d (p.toPhase d .dataRead) [ackOnly m.ab]
  | address (d' : δ) (hkind : m.kind = .write) (hphase : (p.core d).phase = .addressPhase)
      (hselect : p.select d m.data = .ok d') : p.Takes m d (p.toPhase d' .dataWrite) [ackOnly m.ab]
  | store (i : Nat) (hkind : m.kind = .write) (hphase : (p.core d).phase = .dataWrite)
      (hsel : (p.core d).sel = some i) :
      p.Takes m d (p.stepSel (p.writeReg d i m.data).1 i) ((p.writeReg d i m.data).2 ++ [ackOnly m.ab])
  | read (i : Nat) (hkind : m.kind = .read) (hphase : (p.core d).phase = .dataRead)
      (hsel : (p.core d).sel = some i) :
      p.Takes m d (p.stepSel (p.postRead d i) i) [ackWithByte (regRead (p.core d).regs i) m.ab]
  | stop (hkind : m.kind = .stop) : p.Takes m d (p.reset d) []

theorem selectIndex_eq_ok {δ : Type} (core : δ → RegCore) (setCore : δ → RegCore → δ) (last : Nat) (d d' : δ) (b : Byte)
    (h : selectIndex core setCore last d b = .ok d') :
    b.toNat ≤ last ∧ d' = setCore d { core d with sel := some b.toNat } := by
  unfold selectIndex at h
  split at h <;> cases h
  rename_i hle
  exact ⟨Nat.le_of_not_lt hle, rfl⟩

theorem kpPlugs_select : kpPlugs.select = selectIndex kpPlugs.core kpPlugs.setCore kpPlugs.last := rfl
theorem rtcPlugs_select (c : Config) :
    (rtcPlugs c).select = selectIndex (rtcPlugs c).core (rtcPlugs c).setCore (rtcPlugs c).last := rfl

/-- LEDCTL and the WRITE in AddressPhase are one rule (R114). -/
theorem onAddress_eq_done {δ : Type} (p : Plugs δ) (ab b : Byte) (d d' : δ) (es : List Effect)
    (h : p.onAddress ab b d = .done d' es) :
    ∃ d1, p.select d b = .ok d1 ∧ d' = p.toPhase d1 .dataWrite ∧ es = [ackOnly ab] := by
  unfold Plugs.onAddress at h
  split at h
  · cases h
  · rename_i d1 hselect
    cases h
    exact ⟨d1, hselect, rfl, rfl⟩

theorem handle_eq_done {δ : Type} (p : Plugs δ) (m : BusMessage) (d d' : δ) (es : List Effect)
    (h : p.handle m d = .done d' es) : p.Takes m d d' es := by
  unfold Plugs.handle at h
  split at h
  case h_1 hkind =>
    cases h
    exact .startW hkind
  case h_2 hkind =>
    unfold Plugs.onStartR at h
    split at h <;> cases h
    rename_i hsel
    exact .startR hkind (by simp [hsel])
  case h_3 hkind =>
    unfold Plugs.onWrite at h
    split at h
    case h_1 hphase =>
      obtain ⟨d1, hselect, rfl, rfl⟩ := onAddress_eq_done p _ _ d d' es h
      exact .address d1 hkind hphase hselect
    case h_2 hphase =>
      unfold Plugs.onStore at h
      split at h <;> cases h
      rename_i i hsel
      exact .store i hkind hphase hsel
    all_goals cases h
  case h_4 hkind =>
    unfold Plugs.onRead at h
    split at h <;> cases h
    rename_i i hphase hsel
    exact .read i hkind hphase hsel
  case h_5 hkind =>
    cases h
    exact .stop hkind
  case h_6 => cases h

/-! ## The line -/

/-- The level of the interrupt line, if the device is a keypad. -/
def DevState.line : DevState → Option Bool
  | .keypad d => some d.intN
  | .rtc _ | .eeprom _ | .led _ | .display _ => none

@[simp] theorem reset_line (st : DevState) : st.reset.line = st.line := by cases st <;> rfl
@[simp] theorem released_line (st : DevState) : st.released.line = st.line := by cases st <;> rfl

/-- The rules by which move `e` moves the line of the device `dev` at position `k` to a level: R188 and R181. -/
inductive LineRule (s : State) (k : Nat) (dev : Device) : HostEvent → Bool → Prop
  | acknowledged (order : List Nat) (focus : Nat) (w : BusWord) (d : Keypad) (hlive : dev.live = true)
      (hst : dev.st = .keypad d) (hacc : dev.accepts (decodeMessage w).address = true)
      (hkind : (decodeMessage w).kind = .write) (hphase : d.core.phase = .dataWrite)
      (hsel : d.core.sel = some kpIntStat) (hcleared : andNot d.unacked (decodeMessage w).data = 0) :
      LineRule s k dev (.operation order focus (.busOut w)) true
  | called (e : HostEvent) (f : Env → Keypad → Keypad × List Effect) (d : Keypad) (hlive : dev.live = true)
      (hst : dev.st = .keypad d) (hcall : KeyCall e k f) (hen : kpInterruptEnabled d.core.regs = true)
      (hroom : kpCount d.core.regs < kpFifoCap) : LineRule s k dev e false
  | released (a : PendingAction) (code : Nat) (d : Keypad) (hlive : dev.live = true) (hst : dev.st = .keypad d)
      (ha : a ∈ s.pending) (howner : a.owner = k) (hpayload : a.payload = .keyRelease code) (hdue : a.fireAt ≤ s.now)
      (hen : kpInterruptEnabled d.core.regs = true) (hroom : kpCount d.core.regs < kpFifoCap) :
      LineRule s k dev (.fire a.id) false

theorem mapErase_of_find?_none {α : Type} (l : List (Nat × α)) (a : Nat) (h : mapFind? l a = none) :
    mapErase l a = l := by
  simpa [mapErase] using (mapFind?_eq_none l a).mp h

/-- The keypad without a handle on the release of a key. -/
def Keypad.dropRelease (d : Keypad) (code : Nat) : Keypad :=
  { d with pendingRelease := mapErase d.pendingRelease code }

/-- A press of a key that exists (R183): the old release, if any, is cancelled, the press queued, the new release
scheduled. -/
theorem pressAndRelease_eq (env : Env) (d : Keypad) (row col : Nat) (h : keyExists env.cfg row col = true) :
    d.pressAndRelease env row col =
      ({ ((d.dropRelease (keyCode row col)).addEvent env.cfg true row col).1 with
         pendingRelease := mapInsert ((d.dropRelease (keyCode row col)).addEvent env.cfg true row col).1.pendingRelease
           (keyCode row col) env.id },
       (mapFind? d.pendingRelease (keyCode row col)).toList.map Effect.cancel ++
         ((d.dropRelease (keyCode row col)).addEvent env.cfg true row col).2 ++
         [.schedule env.cfg.kpReleaseDelayUs (.keyRelease (keyCode row col))]) := by
  simp only [Keypad.pressAndRelease, if_pos h]
  cases hfind : mapFind? d.pendingRelease (keyCode row col) with
  | none =>
    have hdrop : d.dropRelease (keyCode row col) = d := by rw [Keypad.dropRelease, mapErase_of_find?_none _ _ hfind]
    rw [hdrop]
    rfl
  | some id => rfl

theorem pressAndRelease_refused (env : Env) (d : Keypad) (row col : Nat) (h : ¬ keyExists env.cfg row col = true) :
    d.pressAndRelease env row col = (d, []) := by
  unfold Keypad.pressAndRelease
  rw [if_neg h]

/-- An acknowledge raises the line exactly when it clears the last unacknowledged bit (R188). -/
theorem acknowledge_line (d : Keypad) (v : Byte) :
    (d.acknowledge v).1.intN = d.intN ∨ (d.acknowledge v).1.intN = true ∧ andNot d.unacked v = 0 := by
  unfold Keypad.acknowledge
  dsimp only
  split
  · rename_i h
    exact .inr ⟨rfl, h.1⟩
  · exact .inl rfl

/-- A raw event takes the line low where interrupts are enabled and the FIFO has room (R181). -/
theorem queueEvent_line (d : Keypad) (b : Byte) :
    (d.queueEvent b).1.intN = d.intN ∨
    (d.queueEvent b).1.intN = false ∧ kpInterruptEnabled d.core.regs = true ∧ kpCount d.core.regs < kpFifoCap := by
  unfold Keypad.queueEvent
  dsimp only
  split
  · exact .inl rfl
  · rename_i hroom
    split
    · rename_i hen
      have hcfg : kpKeyEventA + kpCount d.core.regs ≠ kpCfg := by
        rw [kpKeyEventA, kpCfg]
        omega
      rw [kpInterruptEnabled, regRead_regWrite_other _ _ _ _ hcfg, regRead_regWrite_other _ _ _ _ (by decide)] at hen
      exact .inr ⟨rfl, hen, Nat.lt_of_not_le hroom⟩
    · exact .inl rfl

theorem addRawEvent_line (d : Keypad) (b : Byte) :
    (d.addRawEvent b).1.intN = d.intN ∨
    (d.addRawEvent b).1.intN = false ∧ kpInterruptEnabled d.core.regs = true ∧ kpCount d.core.regs < kpFifoCap := by
  unfold Keypad.addRawEvent
  split
  · exact .inl rfl
  · exact queueEvent_line d b

theorem addEvent_line (cfg : Config) (d : Keypad) (press : Bool) (row col : Nat) :
    (d.addEvent cfg press row col).1.intN = d.intN ∨
    (d.addEvent cfg press row col).1.intN = false ∧ kpInterruptEnabled d.core.regs = true ∧
      kpCount d.core.regs < kpFifoCap := by
  unfold Keypad.addEvent
  split
  · exact addRawEvent_line d _
  · exact .inl rfl

/-- The handles on pending releases do not enter the line. -/
theorem pressAndRelease_line (env : Env) (d : Keypad) (row col : Nat) :
    (d.pressAndRelease env row col).1.intN = d.intN ∨
    (d.pressAndRelease env row col).1.intN = false ∧ kpInterruptEnabled d.core.regs = true ∧
      kpCount d.core.regs < kpFifoCap := by
  by_cases hkey : keyExists env.cfg row col = true
  · rw [pressAndRelease_eq env d row col hkey]
    exact addEvent_line env.cfg (d.dropRelease (keyCode row col)) true row col
  · rw [pressAndRelease_refused env d row col hkey]
    exact .inl rfl

theorem keyCall_line (e : HostEvent) (k : Nat) (f : Env → Keypad → Keypad × List Effect) (h : KeyCall e k f)
    (env : Env) (d : Keypad) :
    (f env d).1.intN = d.intN ∨
    (f env d).1.intN = false ∧ kpInterruptEnabled d.core.regs = true ∧ kpCount d.core.regs < kpFifoCap := by
  cases h with
  | event k press row col => exact addEvent_line env.cfg d press row col
  | raw k b => exact addRawEvent_line d b
  | pressAndRelease k row col => exact pressAndRelease_line env d row col
  | pressAndReleaseCode k code =>
    dsimp only
    split
    · exact .inl rfl
    · exact pressAndRelease_line env d _ _

/-- Writes to other registers than KP_INT_STAT leave the line alone (R187). -/
theorem keypad_writeReg_line (d : Keypad) (i : Nat) (v : Byte) :
    (d.writeReg i v).1.intN = d.intN ∨
    (d.writeReg i v).1.intN = true ∧ i = kpIntStat ∧ andNot d.unacked v = 0 := by
  unfold Keypad.writeReg
  split
  · rename_i hi
    rcases acknowledge_line d v with h | ⟨hup, hcleared⟩
    · exact .inl h
    · exact .inr ⟨hup, hi, hcleared⟩
  · split <;> exact .inl rfl

theorem keypad_postRead_line (d : Keypad) (i : Nat) : (d.postRead i).intN = d.intN := by
  unfold Keypad.postRead Keypad.pop
  dsimp only
  split
  · split <;> rfl
  · rfl

/-- Selecting a register writes the shared core only. -/
theorem keypad_select_line (d d' : Keypad) (b : Byte) (h : kpPlugs.select d b = .ok d') : d'.intN = d.intN := by
  rw [kpPlugs_select] at h
  obtain ⟨-, rfl⟩ := selectIndex_eq_ok _ _ _ _ _ _ h
  rfl

/-- The messages leave the line alone, but for a WRITE to KP_INT_STAT. -/
theorem handle_keypad_line (m : BusMessage) (d d' : Keypad) (es : List Effect) (h : kpPlugs.handle m d = .done d' es) :
    d'.intN = d.intN ∨ d'.intN = true ∧ m.kind = .write ∧ d.core.phase = .dataWrite ∧
      d.core.sel = some kpIntStat ∧ andNot d.unacked m.data = 0 := by
  cases handle_eq_done kpPlugs m d d' es h with
  | startW | startR | stop => exact .inl rfl
  | address d1 _ _ hselect => exact .inl (keypad_select_line d d1 m.data hselect)
  | store i hkind hphase hsel =>
    rcases keypad_writeReg_line d i m.data with hline | ⟨hup, rfl, hcleared⟩
    · exact .inl hline
    · exact .inr ⟨hup, hkind, hphase, hsel, hcleared⟩
  | read i => exact .inl (keypad_postRead_line d i)

theorem line_eq_none (st : DevState) (h : st.kind ≠ .keypad) : st.line = none := by
  cases st with
  | keypad d => exact absurd rfl h
  | rtc d | eeprom d | led d | display d => rfl

/-- A device that is no keypad has no line to move. -/
theorem line_of_kind (st st' : DevState) (hkind : st'.kind = st.kind) (hst : st.kind ≠ .keypad) :
    st'.line = st.line := by
  rw [line_eq_none st hst, line_eq_none st' (hkind ▸ hst)]

theorem line_of_same (s t : State) (j : Nat) (old new : Device) (hdevices : t.devices = s.devices)
    (hold : s.devices[j]? = some old) (hnew : t.devices[j]? = some new) : new.st.line = old.st.line := by
  rw [hdevices, hold] at hnew
  rw [Option.some.inj hnew]

theorem react_line_of_kind (s : State) (k j : Nat) (dev old new : Device) (r : Reaction DevState)
    (hlive : liveAt s k dev) (hkind : r.OfKind dev.st.kind) (hne : dev.st.kind ≠ .keypad)
    (hold : s.devices[j]? = some old) (hnew : (s.react k dev r).devices[j]? = some new) :
    new.st.line = old.st.line := by
  rcases react_device s k j dev old new r hlive hold hnew with rfl | ⟨-, rfl, st, es, hr, rfl⟩
  · rfl
  · exact line_of_kind _ st (hkind st es hr) hne

theorem onDisplay_line (s : State) (f : Env → Display → Display × List Effect) (j : Nat) (old new : Device)
    (hold : s.devices[j]? = some old) (hnew : (s.onDisplay f).devices[j]? = some new) : new.st.line = old.st.line := by
  rcases onDisplay_cases s f with h | ⟨dev, d, hlive, hst, h⟩ <;> rw [h] at hnew
  · exact line_of_same s s j _ _ rfl hold hnew
  · exact react_line_of_kind s _ j dev old new _ hlive (hst ▸ Reaction.done_ofKind _ _) (by simp [hst, DevState.kind])
      hold hnew

theorem ledSelectByte_line (s : State) (b : Byte) (j : Nat) (old new : Device)
    (hold : s.devices[j]? = some old) (hnew : (s.ledSelectByte b).devices[j]? = some new) :
    new.st.line = old.st.line := by
  rcases ledSelectByte_cases s b with h | ⟨dev, d, hlive, hst, h⟩ <;> rw [h] at hnew
  · exact line_of_same s s j _ _ rfl hold hnew
  · exact react_line_of_kind s _ j dev old new _ hlive (hst ▸ Reaction.map_ofKind _ _ _ fun _ => rfl)
      (by simp [hst, DevState.kind]) hold hnew

theorem eeAddressBytes_line (s : State) (hi lo : Byte) (j : Nat) (old new : Device)
    (hold : s.devices[j]? = some old) (hnew : (s.eeAddressBytes hi lo).devices[j]? = some new) :
    new.st.line = old.st.line := by
  rcases eeAddressBytes_cases s hi lo with h | ⟨dev, d, hlive, hst, h⟩ <;> rw [h] at hnew
  · exact line_of_same s s j _ _ rfl hold hnew
  · exact react_line_of_kind s _ j dev old new _ hlive (hst ▸ Reaction.map_ofKind _ _ _ fun _ => rfl)
      (by simp [hst, DevState.kind]) hold hnew

theorem destroy_line (s : State) (k j : Nat) (dev new : Device) (hold : s.devices[j]? = some dev)
    (hnew : (s.destroy k).devices[j]? = some new) : new.st.line = dev.st.line := by
  unfold State.destroy at hnew
  split at hnew
  · rename_i dev' hlive
    obtain ⟨hdev, -⟩ := (liveDevice?_eq_some s k dev').mp hlive
    by_cases hkj : k = j
    · subst hkj
      have hlt := (List.getElem?_eq_some_iff.mp hdev).1
      obtain rfl : dev' = dev := Option.some.inj (hdev.symm.trans hold)
      obtain rfl : { dev' with live := false, st := dev'.st.released } = new := by simpa [hlt] using hnew
      exact released_line dev'.st
    · obtain rfl : dev = new := by simpa [hkj, hold] using hnew
      rfl
  · obtain rfl : dev = new := Option.some.inj (hold.symm.trans hnew)
    rfl

theorem handle_line (env : Env) (m : BusMessage) (st st' : DevState) (es : List Effect)
    (h : st.handle env m = .done st' es) :
    st'.line = st.line ∨ st'.line = some true ∧ m.kind = .write ∧ ∃ d, st = .keypad d ∧ d.core.phase = .dataWrite ∧
      d.core.sel = some kpIntStat ∧ andNot d.unacked m.data = 0 := by
  by_cases hkind : st.kind = .keypad
  · cases st <;> cases hkind
    rename_i d
    obtain ⟨d', hd', rfl⟩ := (Reaction.map_eq_done _ _ _ _).mp h
    rcases handle_keypad_line m d d' es hd' with hline | ⟨hup, hwrite, hphase, hsel, hcleared⟩
    · exact .inl (congrArg some hline)
    · exact .inr ⟨congrArg some hup, hwrite, d, rfl, hphase, hsel, hcleared⟩
  · exact .inl (line_of_kind st st' (handle_kind env m st st' es h) hkind)

/-- What a delivery does to the line of one device: nothing, or the acknowledge. -/
theorem respond_line (s : State) (k : Nat) (env : Env) (order : List Nat) (focus : Nat) (w : BusWord) (dev : Device)
    (st : DevState) (es : List Effect) (hlive : dev.live = true)
    (h : dev.respond env (decodeMessage w) = .done st es) :
    st.line = dev.st.line ∨
    ∃ level, st.line = some level ∧ LineRule s k dev (.operation order focus (.busOut w)) level := by
  rcases respond_eq_done env _ dev st es h with ⟨hacc, st', hhandle, hst⟩ | ⟨-, rfl | rfl⟩
  · have hsame : st.line = st'.line := by
      rcases hst with rfl | rfl
      · rfl
      · exact reset_line st'
    rw [hsame]
    rcases handle_line env _ dev.st st' es hhandle with hline | ⟨hup, hkind, d, hd, hphase, hsel, hcleared⟩
    · exact .inl hline
    · exact .inr ⟨true, hup, .acknowledged order focus w d hlive hd hacc hkind hphase hsel hcleared⟩
  · exact .inl rfl
  · exact .inl (reset_line dev.st)

theorem callback_line (s t : State) (a : PendingAction) (k : Nat) (dev new : Device) (hdevices : t.devices = s.devices)
    (ha : a ∈ s.pending) (hdue : a.fireAt ≤ s.now) (hold : s.devices[k]? = some dev)
    (hnew : (t.callback a).devices[k]? = some new) :
    new.st.line = dev.st.line ∨ ∃ level, new.st.line = some level ∧ LineRule s k dev (.fire a.id) level := by
  have hold' : t.devices[k]? = some dev := hdevices ▸ hold
  rcases callback_cases t a with ⟨h, -⟩ | ⟨dev', st, es, hlive, hfires, h⟩ <;> rw [h] at hnew
  · exact .inl (line_of_same t t k dev new rfl hold' hnew)
  · obtain ⟨-, hl⟩ := (liveDevice?_eq_some t _ dev').mp hlive
    rcases react_device t _ k dev' dev new _ hlive hold' hnew with rfl | ⟨hk, rfl, _, _, ⟨⟩, rfl⟩
    · exact .inl rfl
    · generalize hst : dev.st = st0 at hfires
      generalize hp : a.payload = p at hfires
      cases hfires with
      | tick d => exact .inl rfl
      | pulseEnd d => exact .inl rfl
      | release d code =>
        rcases addRawEvent_line (d.dropRelease code) (keyEventByte false code) with hline | ⟨hdown, hen, hroom⟩
        · exact .inl (congrArg some hline)
        · exact .inr ⟨false, congrArg some hdown, .released a code d hl hst ha hk.symm hp hdue hen hroom⟩

/-- One move and one device: its line stays, or a rule moves it. -/
theorem moved_line (s t : State) (e : HostEvent) (k : Nat) (dev new : Device) (h : Moved s e t)
    (hold : s.devices[k]? = some dev) (hnew : t.devices[k]? = some new) :
    new.st.line = dev.st.line ∨ ∃ level, new.st.line = some level ∧ LineRule s k dev e level := by
  have same (u : State) (hu : u.devices = s.devices) (h : u.devices[k]? = some new) : new.st.line = dev.st.line :=
    line_of_same s u k dev new hu hold h
  cases h with
  | operation order focus enc t hran =>
    cases hran with
    | delivered w =>
      rcases deliver_device { s with order := order, focus := focus } _ k dev new hold hnew with
        rfl | ⟨hlive, env, st, es, hr, rfl⟩
      · exact .inl rfl
      · exact respond_line s k env order focus w dev st es hlive hr
    | replied w r => exact .inl (same _ rfl hnew)
    | ignored => exact .inl (same _ rfl hnew)
    | onDisplay bytes f hf =>
      exact .inl (onDisplay_line { s with order := order, focus := focus } f k dev new hold hnew)
    | ledSelect b b' =>
      exact .inl (ledSelectByte_line { s with order := order, focus := focus } b' k dev new hold hnew)
    | eeAddress hi lo =>
      exact .inl (eeAddressBytes_line { s with order := order, focus := focus } hi lo k dev new hold hnew)
  | advance cycles => exact .inl (same _ rfl hnew)
  | answered e l => exact .inl (same _ rfl hnew)
  | raised e k c info => exact .inl (same _ rfl hnew)
  | registered e callback => exact .inl (same _ rfl hnew)
  | fire id =>
    rcases fire_cases s id with h | ⟨a, ha, rfl, hdue, h⟩ <;> rw [h] at hnew
    · exact .inl (same s rfl hnew)
    · exact callback_line s (s.takeAction a) a k dev new rfl ha hdue hold hnew
  | keyCall e j f hcall =>
    rcases onKeypad_cases s j f with h | ⟨dev', d, hlive, hst, h⟩ <;> rw [h] at hnew
    · exact .inl (same s rfl hnew)
    · rcases react_device s j k dev' dev new _ hlive hold hnew with rfl | ⟨rfl, rfl, _, _, ⟨⟩, rfl⟩
      · exact .inl rfl
      · rcases keyCall_line e k f hcall s.env d with hline | ⟨hdown, hen, hroom⟩
        · exact .inl (by rw [hst]; exact congrArg some hline)
        · obtain ⟨-, hl⟩ := (liveDevice?_eq_some s k dev).mp hlive
          exact .inr ⟨false, congrArg some hdown, .called e f d hl hst hcall hen hroom⟩
  | attached spec =>
    rcases (attach_device_eq_some s spec k new).mp hnew with h | ⟨rfl, -⟩
    · exact .inl (same s rfl h)
    · simp at hold
  | destroyed j => exact .inl (destroy_line s j k dev new hold hnew)

/-- Exactly one framing condition makes a WRITE (R64). -/
theorem conditions_of_kind_write (m : BusMessage) (h : m.kind = .write) :
    m.conditions = { start := false, stop := false, write := true, read := false } := by
  unfold BusMessage.kind at h
  split at h
  · split at h <;> cases h
  · assumption
  all_goals cases h

/-- A WRITE is told by the framing bits of its word (R63, R64, R66). -/
theorem framing_of_kind_write (w : BusWord) (h : (decodeMessage w).kind = .write) :
    w &&& 0x00003300 = 0x00001000 := by
  obtain ⟨hstart, hstop, hwrite, hread⟩ :
      w.getLsbD 8 = false ∧ w.getLsbD 9 = false ∧ w.getLsbD 12 = true ∧ w.getLsbD 13 = false :=
    Conditions.mk.inj (conditions_of_kind_write _ h)
  apply BitVec.eq_of_getLsbD_eq
  intro i hi
  rw [BitVec.getLsbD_and]
  interval_cases i <;> simp_all

/-- Settles O52: a step is one move, and a move changes the line of a keypad by one of the rules only. -/
theorem interruptLineMovesOnlyByItsRules : Obligations.InterruptLineMovesOnlyByItsRules := by
  intro s t k dev dev' d d' hstep hold hst hnew hst'
  have hline : d'.intN = d.intN ∨
      ∃ e rest, s.inbox = e :: rest ∧ LineRule { s with inbox := rest } k dev e d'.intN := by
    rcases step_cases s t hstep with rfl | ⟨e, rest, hin, hmoved⟩
    · rw [hold] at hnew
      obtain rfl := Option.some.inj hnew
      rw [hst] at hst'
      cases hst'
      exact .inl rfl
    · rcases moved_line _ t e k dev dev' hmoved hold hnew with h | ⟨level, h, hrule⟩ <;> rw [hst'] at h
      · rw [hst] at h
        exact .inl (Option.some.inj h)
      · obtain rfl := Option.some.inj h
        exact .inr ⟨e, rest, hin, hrule⟩
  constructor
  · intro hlow hhigh
    rw [hlow, hhigh] at hline
    rcases hline with h | ⟨e, rest, hin, hrule⟩
    · cases h
    · cases hrule with
      | acknowledged order focus w d0 hlive hst0 hacc hkind hphase hsel hcleared =>
        rw [hst] at hst0
        cases hst0
        exact ⟨order, focus, w, rest, hin, hlive, hacc, framing_of_kind_write w hkind, hphase, hsel, hcleared⟩
  · intro hhigh hlow
    rw [hlow, hhigh] at hline
    rcases hline with h | ⟨e, rest, hin, hrule⟩
    · cases h
    · cases hrule with
      | called _ f d0 hlive hst0 hcall hen hroom =>
        rw [hst] at hst0
        cases hst0
        refine ⟨hen, hroom, hlive, e, rest, hin, ?_⟩
        cases hcall with
        | event _ press row col => exact .inl ⟨press, row, col, rfl⟩
        | raw _ b => exact .inr (.inl ⟨b, rfl⟩)
        | pressAndRelease _ row col => exact .inr (.inr (.inl ⟨row, col, rfl⟩))
        | pressAndReleaseCode _ code => exact .inr (.inr (.inr (.inl ⟨code, rfl⟩)))
      | released a code d0 hlive hst0 ha howner hpayload hdue hen hroom =>
        rw [hst] at hst0
        cases hst0
        exact ⟨hen, hroom, hlive, _, rest, hin, .inr (.inr (.inr (.inr ⟨a, code, rfl, ha, howner, hpayload, hdue⟩)))⟩

end Sys2Proof.Machine
end

section
/-! PROOFS. The timed actions a device keeps a handle on, and what a reaction does to them (R134, R185, R192, R244,
R271, R273). -/

namespace Sys2Proof.Machine

/-! ## Handles -/

/-- The pending actions a device holds on to, each by its identifier and what it is for. -/
def DevState.handles : DevState → List (Nat × Payload)
  | .rtc d => [(d.timer, .rtcTick)]
  | .keypad d => d.pendingRelease.map (fun e => (e.2, .keyRelease e.1))
  | .display d => d.busyTimer.toList.map (fun t => (t, .busyEnd))
  | .eeprom _ | .led _ => []

/-- BUSY is high exactly while a busy timer is held (R244). -/
def DevState.busyAgrees : DevState → Prop
  | .display d => d.busy = d.busyTimer.isSome
  | .rtc _ | .eeprom _ | .keypad _ | .led _ => True

/-- A pending action of device `k` bears the identifier and the payload of the handle; a tick recurs. -/
def Named (pending : List PendingAction) (k : Nat) (h : Nat × Payload) : Prop :=
  ∃ a ∈ pending, a.id = h.1 ∧ a.owner = k ∧ a.payload = h.2 ∧ (h.2 = .rtcTick → a.periodic.isSome = true)

theorem timersOk_iff (pending : List PendingAction) (k : Nat) (st : DevState) :
    timersOk pending k st = true ↔ st.busyAgrees ∧ ∀ h ∈ st.handles, Named pending k h := by
  cases st with
  | rtc d => simp [timersOk, DevState.busyAgrees, DevState.handles, Named, and_assoc]
  | keypad d =>
    simp only [timersOk, DevState.busyAgrees, DevState.handles, Named, List.forall_mem_map, List.all_eq_true,
      List.any_eq_true, decide_eq_true_eq, true_and]
    simp
  | display d => cases h : d.busyTimer <;> simp [timersOk, DevState.busyAgrees, DevState.handles, Named, h]
  | eeprom d | led d => simp [timersOk, DevState.busyAgrees, DevState.handles]

@[simp] theorem reset_handles (st : DevState) : st.reset.handles = st.handles := by cases st <;> rfl

theorem reset_busyAgrees (st : DevState) (h : st.busyAgrees) : st.reset.busyAgrees := by cases st <;> exact h

/-! ## The invariant, position by position -/

theorem inv_iff (s : State) :
    s.Inv ↔ configOk s.cfg ∧ pendingOk s ∧ s.finished.length ≤ transcriptCap ∧
      ∀ j dev, s.devices[j]? = some dev → deviceOk s.cfg dev.st = true ∧
        (dev.live = true → timersOk s.pending j dev.st = true) := by
  have hpos : (∀ k, ∀ h : k < s.devices.length, deviceOk s.cfg (s.devices[k]).st = true ∧
      ((s.devices[k]).live = true → timersOk s.pending k (s.devices[k]).st = true)) ↔
      ∀ j dev, s.devices[j]? = some dev → deviceOk s.cfg dev.st = true ∧
        (dev.live = true → timersOk s.pending j dev.st = true) := by
    constructor
    · intro h j dev hdev
      obtain ⟨hlt, rfl⟩ := List.getElem?_eq_some_iff.mp hdev
      exact h j hlt
    · exact fun h k hlt => h k _ (List.getElem?_eq_getElem hlt)
  unfold State.Inv
  rw [hpos]

/-- The invariant while device `k` reacts: its handles are not asked to name actions, those of `hs` are. -/
structure State.InvHolding (s : State) (k : Nat) (hs : List (Nat × Payload)) : Prop where
  cfg      : configOk s.cfg
  pending  : pendingOk s
  finished : s.finished.length ≤ transcriptCap
  device   : ∀ (j : Nat) (dev : Device), s.devices[j]? = some dev → deviceOk s.cfg dev.st = true
  timers   : ∀ (j : Nat) (dev : Device), s.devices[j]? = some dev → dev.live = true → j ≠ k →
    timersOk s.pending j dev.st = true
  held     : ∀ h ∈ hs, Named s.pending k h

theorem State.InvHolding.inv {s : State} {k : Nat} {hs : List (Nat × Payload)} (h : s.InvHolding k hs)
    (hk : ∀ dev, s.devices[k]? = some dev → dev.live = true → dev.st.busyAgrees ∧ dev.st.handles ⊆ hs) : s.Inv := by
  refine (inv_iff s).mpr ⟨h.cfg, h.pending, h.finished, fun j dev hdev => ⟨h.device j dev hdev, fun hlive => ?_⟩⟩
  by_cases hjk : j = k
  · subst hjk
    obtain ⟨hbusy, hsub⟩ := hk dev hdev hlive
    exact (timersOk_iff _ _ _).mpr ⟨hbusy, fun x hx => h.held x (hsub hx)⟩
  · exact h.timers j dev hdev hlive hjk

/-- Two pending actions differ in their identifiers (R271). -/
theorem action_eq_of_id {s : State} (hp : pendingOk s) {a b : PendingAction} (ha : a ∈ s.pending) (hb : b ∈ s.pending)
    (hid : a.id = b.id) : a = b := by
  obtain ⟨hnodup, -⟩ := hp
  exact List.inj_on_of_nodup_map hnodup ha hb hid

theorem Named.eq_of_id {s : State} {j k : Nat} {g h : Nat × Payload} (hp : pendingOk s) (hg : Named s.pending j g)
    (hh : Named s.pending k h) (hid : g.1 = h.1) : j = k ∧ g = h := by
  obtain ⟨a, ha, haid, haowner, hapayload, -⟩ := hg
  obtain ⟨b, hb, hbid, hbowner, hbpayload, -⟩ := hh
  obtain rfl := action_eq_of_id hp ha hb (haid.trans (hid.trans hbid.symm))
  exact ⟨haowner.symm.trans hbowner, Prod.ext hid (hapayload.symm.trans hbpayload)⟩

/-- Dropping pending actions keeps what is said of the others. -/
theorem pendingOk_of_sublist (s t : State) (h : pendingOk s) (hsub : t.pending.Sublist s.pending)
    (hid : t.nextId = s.nextId) (hlive : ∀ a ∈ t.pending, (t.liveDevice? a.owner).isSome = true) : pendingOk t := by
  obtain ⟨hnodup, hfresh, -, hperiodic⟩ := h
  exact ⟨(hsub.map _).nodup hnodup, fun a ha => hid ▸ hfresh a (hsub.subset ha), hlive,
    fun a ha => hperiodic a (hsub.subset ha)⟩

theorem Named.mono {p q : List PendingAction} {k : Nat} {h : Nat × Payload} (hn : Named p k h) (hpq : p ⊆ q) :
    Named q k h := by
  obtain ⟨a, ha, hrest⟩ := hn
  exact ⟨a, hpq ha, hrest⟩

theorem Named.filter {pending : List PendingAction} {k : Nat} {h : Nat × Payload} (hn : Named pending k h)
    (p : PendingAction → Bool) (hp : ∀ a, a.id = h.1 → a.owner = k → p a = true) : Named (pending.filter p) k h := by
  obtain ⟨a, ha, hid, howner, hrest⟩ := hn
  exact ⟨a, List.mem_filter.mpr ⟨ha, hp a hid howner⟩, hid, howner, hrest⟩

/-! ## Effects on the pending actions -/

/-- The effects that leave the timed actions alone. -/
def Effect.quiet : Effect → Bool
  | .reply _ | .pin _ _ | .log _ | .drew _ => true
  | .cancel _ | .schedule _ _ => false

/-- A device that holds `hs` and carries out the effects holds at most the last list: a cancelled handle is given up,
the action scheduled as `id` can be held. -/
inductive Grants : Nat → List (Nat × Payload) → List Effect → List (Nat × Payload) → Prop
  | nil (id : Nat) (hs : List (Nat × Payload)) : Grants id hs [] hs
  | quiet (id : Nat) (hs hs' : List (Nat × Payload)) (e : Effect) (es : List Effect) (he : e.quiet = true)
      (rest : Grants id hs es hs') : Grants id hs (e :: es) hs'
  | cancel (id old : Nat) (p : Payload) (hs kept hs' : List (Nat × Payload)) (es : List Effect) (hold : (old, p) ∈ hs)
      (hkept : kept ⊆ hs) (hgone : (old, p) ∉ kept) (rest : Grants id kept es hs') :
      Grants id hs (.cancel old :: es) hs'
  | schedule (id delayUs : Nat) (p : Payload) (hs hs' : List (Nat × Payload)) (es : List Effect) (hp : p ≠ .rtcTick)
      (rest : Grants (id + 1) ((id, p) :: hs) es hs') : Grants id hs (.schedule delayUs p :: es) hs'

theorem Grants.quiet_append (id : Nat) (hs hs' : List (Nat × Payload)) (es rest : List Effect)
    (hq : ∀ e ∈ es, e.quiet = true) (h : Grants id hs rest hs') : Grants id hs (es ++ rest) hs' := by
  induction es with
  | nil => exact h
  | cons e es ih =>
    obtain ⟨he, hes⟩ := List.forall_mem_cons.mp hq
    exact .quiet id hs hs' e _ he (ih hes)

theorem Grants.of_quiet (id : Nat) (hs : List (Nat × Payload)) (es : List Effect) (hq : ∀ e ∈ es, e.quiet = true) :
    Grants id hs es hs := by
  simpa using Grants.quiet_append id hs hs es [] hq (.nil id hs)

theorem perform_quiet (k : Nat) (s : State) (e : Effect) (he : e.quiet = true) :
    (s.perform k e).pending = s.pending ∧ (s.perform k e).nextId = s.nextId := by
  cases e with
  | reply | pin | log | drew => exact ⟨rfl, rfl⟩
  | cancel | schedule => cases he

theorem State.InvHolding.quiet {s : State} {k : Nat} {hs : List (Nat × Payload)} (h : s.InvHolding k hs) (e : Effect)
    (he : e.quiet = true) : (s.perform k e).InvHolding k hs := by
  obtain ⟨hcfg, hpending, hfinished, hdevice, htimers, hheld⟩ := h
  cases e with
  | reply | pin | log | drew => exact ⟨hcfg, hpending, hfinished, hdevice, htimers, hheld⟩
  | cancel | schedule => cases he

theorem State.InvHolding.cancel {s : State} {k old : Nat} {p : Payload} {hs kept : List (Nat × Payload)}
    (h : s.InvHolding k hs) (hold : (old, p) ∈ hs) (hkept : kept ⊆ hs) (hgone : (old, p) ∉ kept) :
    (s.cancel old).InvHolding k kept where
  cfg := h.cfg
  pending := by
    obtain ⟨-, -, howner, -⟩ := id h.pending
    exact pendingOk_of_sublist s _ h.pending List.filter_sublist rfl fun a ha => howner a (List.mem_of_mem_filter ha)
  finished := h.finished
  device := h.device
  timers j dev hdev hlive hjk := by
    obtain ⟨hbusy, hnamed⟩ := (timersOk_iff _ _ _).mp (h.timers j dev hdev hlive hjk)
    refine (timersOk_iff _ _ _).mpr ⟨hbusy, fun x hx => (hnamed x hx).filter _ fun a hid _ => ?_⟩
    have hne : x.1 ≠ old := fun heq => hjk ((hnamed x hx).eq_of_id h.pending (h.held _ hold) heq).1
    simpa [hid] using hne
  held x hx := by
    have hx' := h.held x (hkept hx)
    refine hx'.filter _ fun a hid _ => ?_
    have hne : x.1 ≠ old := fun heq => hgone ((hx'.eq_of_id h.pending (h.held _ hold) heq).2 ▸ hx)
    simpa [hid] using hne

theorem State.InvHolding.schedule {s : State} {k : Nat} {hs : List (Nat × Payload)} (h : s.InvHolding k hs)
    (delayUs : Nat) (p : Payload) (hp : p ≠ .rtcTick) (hlive : (s.liveDevice? k).isSome = true) :
    (s.schedule k delayUs p).InvHolding k ((s.nextId, p) :: hs) where
  cfg := h.cfg
  pending := by
    obtain ⟨hnodup, hfresh, howner, hperiodic⟩ := h.pending
    refine ⟨?_, ?_, ?_, ?_⟩
    · have hids : ∀ a ∈ s.pending, a.id ≠ s.nextId := fun a ha => (hfresh a ha).ne
      simpa [List.nodup_append, hnodup] using hids
    · exact List.forall_mem_append.mpr ⟨fun a ha => (hfresh a ha).trans (Nat.lt_succ_self _), by simp⟩
    · exact List.forall_mem_append.mpr ⟨howner, List.forall_mem_singleton.mpr hlive⟩
    · exact List.forall_mem_append.mpr ⟨hperiodic, List.forall_mem_singleton.mpr (.inr rfl)⟩
  finished := h.finished
  device := h.device
  timers j dev hdev hl hjk := timersOk_mono _ _ j _ (List.subset_append_left _ _) (h.timers j dev hdev hl hjk)
  held x hx := by
    rcases List.mem_cons.mp hx with rfl | hx
    · exact ⟨_, List.mem_append_right _ List.mem_cons_self, rfl, rfl, rfl, fun htick => absurd htick hp⟩
    · exact (h.held x hx).mono (List.subset_append_left _ _)

/-- The invariant through the effects of a reaction, one after the other. -/
theorem performAll_holding {s : State} {k : Nat} {hs hs' : List (Nat × Payload)} {es : List Effect}
    (hg : Grants s.nextId hs es hs') (h : s.InvHolding k hs) (hlive : (s.liveDevice? k).isSome = true) :
    (es.foldl (State.perform k) s).InvHolding k hs' := by
  generalize hid : s.nextId = id at hg
  induction hg generalizing s with
  | nil id hs => exact h
  | quiet id hs hs' e es he rest ih =>
    have hl : ((s.perform k e).liveDevice? k).isSome = true := by rw [perform_cases]; exact hlive
    exact ih (h.quiet e he) hl ((perform_quiet k s e he).2.trans hid)
  | cancel id old p hs kept hs' es hold hkept hgone rest ih => exact ih (h.cancel hold hkept hgone) hlive hid
  | schedule id delayUs p hs hs' es hp rest ih =>
    subst hid
    exact ih (h.schedule delayUs p hp hlive) hlive rfl

/-! ## Reactions -/

/-- The state a device goes to is consistent and holds on to actions that are there after the effects. -/
structure Keeps (env : Env) (hs : List (Nat × Payload)) (st : DevState) (es : List Effect) : Prop where
  ok     : deviceOk env.cfg st = true
  busy   : st.busyAgrees
  grants : ∃ hs', Grants env.id hs es hs' ∧ st.handles ⊆ hs'

theorem Keeps.of_quiet {env : Env} {hs : List (Nat × Payload)} {st : DevState} {es : List Effect}
    (hok : deviceOk env.cfg st = true) (hbusy : st.busyAgrees) (hes : ∀ e ∈ es, e.quiet = true)
    (hsub : st.handles ⊆ hs) : Keeps env hs st es :=
  ⟨hok, hbusy, hs, .of_quiet _ _ _ hes, hsub⟩

theorem State.Inv.holding {s : State} {k : Nat} {dev : Device} (h : s.Inv) (hlive : liveAt s k dev) :
    s.InvHolding k dev.st.handles := by
  obtain ⟨hcfg, hpending, hfinished, hdevices⟩ := (inv_iff s).mp h
  obtain ⟨hdev, hl⟩ := (liveDevice?_eq_some s k dev).mp hlive
  exact ⟨hcfg, hpending, hfinished, fun j d hd => (hdevices j d hd).1, fun j d hd hlive _ => (hdevices j d hd).2 hlive,
    ((timersOk_iff _ _ _).mp ((hdevices k dev hdev).2 hl)).2⟩

/-- Replacing a live device leaves live what was live. -/
theorem liveDevice?_setDevice_isSome (s : State) (k : Nat) (dev dev' : Device) (hlive : liveAt s k dev)
    (hl : dev'.live = true) (j : Nat) : ((s.setDevice k dev').liveDevice? j).isSome = (s.liveDevice? j).isSome := by
  obtain ⟨hdev, -⟩ := (liveDevice?_eq_some s k dev).mp hlive
  have hlt := (List.getElem?_eq_some_iff.mp hdev).1
  by_cases hkj : k = j
  · subst hkj
    have hnew : (s.setDevice k dev').liveDevice? k = some dev' :=
      (liveDevice?_eq_some _ k dev').mpr ⟨by simp [hlt], hl⟩
    rw [hnew, show s.liveDevice? k = some dev from hlive]
    rfl
  · unfold State.liveDevice?
    rw [setDevice_devices, List.getElem?_set_ne hkj]

theorem State.InvHolding.setDevice {s : State} {k : Nat} {hs : List (Nat × Payload)} (h : s.InvHolding k hs)
    (dev : Device) (st : DevState) (hlive : liveAt s k dev) (hok : deviceOk s.cfg st = true) :
    (s.setDevice k { dev with st := st }).InvHolding k hs := by
  obtain ⟨hdev, hl⟩ := (liveDevice?_eq_some s k dev).mp hlive
  have hlt := (List.getElem?_eq_some_iff.mp hdev).1
  have hcase (j : Nat) (new : Device) (hnew : (s.setDevice k { dev with st := st }).devices[j]? = some new) :
      (j = k ∧ new.st = st) ∨ (j ≠ k ∧ s.devices[j]? = some new) := by
    by_cases hkj : k = j
    · subst hkj
      obtain rfl : { dev with st := st } = new := by simpa [hlt] using hnew
      exact .inl ⟨rfl, rfl⟩
    · exact .inr ⟨Ne.symm hkj, by simpa [hkj] using hnew⟩
  refine ⟨h.cfg, ?_, h.finished, fun j new hnew => ?_, fun j new hnew hlive' hjk => ?_, h.held⟩
  · obtain ⟨-, -, howner, -⟩ := id h.pending
    refine pendingOk_of_sublist s _ h.pending (List.Sublist.refl _) rfl fun a ha => ?_
    rw [liveDevice?_setDevice_isSome s k dev { dev with st := st } hlive hl]
    exact howner a ha
  · rcases hcase j new hnew with ⟨-, rfl⟩ | ⟨-, hold⟩
    · exact hok
    · exact h.device j new hold
  · rcases hcase j new hnew with ⟨rfl, -⟩ | ⟨-, hold⟩
    · exact absurd rfl hjk
    · exact h.timers j new hold hlive' hjk

/-- A reaction without a fault, from a state whose device still holds `hs`. -/
theorem react_done_inv {s : State} {k : Nat} {hs : List (Nat × Payload)} (h : s.InvHolding k hs) (dev : Device)
    (st : DevState) (es : List Effect) (hlive : liveAt s k dev) (hkeeps : Keeps s.env hs st es) :
    (s.react k dev (.done st es)).Inv := by
  obtain ⟨hok, hbusy, hs', hgrants, hsub⟩ := hkeeps
  obtain ⟨hdev, hl⟩ := (liveDevice?_eq_some s k dev).mp hlive
  have hlt := (List.getElem?_eq_some_iff.mp hdev).1
  have hlive' : ((s.setDevice k { dev with st := st }).liveDevice? k).isSome = true := by
    rw [liveDevice?_setDevice_isSome s k dev { dev with st := st } hlive hl, show s.liveDevice? k = some dev from hlive]
    rfl
  have hafter :=
    performAll_holding (s := s.setDevice k { dev with st := st }) hgrants (h.setDevice dev st hlive hok) hlive'
  refine hafter.inv fun new hnew _ => ?_
  obtain rfl : { dev with st := st } = new := by simpa [hlt] using hnew
  exact ⟨hbusy, hsub⟩

/-- A reaction keeps the invariant if every state it answers is one the device may go to; a fault writes nothing. -/
theorem react_inv {s : State} {k : Nat} {dev : Device} (h : s.Inv) (hlive : liveAt s k dev) (r : Reaction DevState)
    (hkeeps : ∀ st es, r = .done st es → Keeps s.env dev.st.handles st es) : (s.react k dev r).Inv := by
  cases r with
  | done st es => exact react_done_inv (h.holding hlive) dev st es hlive (hkeeps st es rfl)
  | raise c info => exact h

end Sys2Proof.Machine
end

section
/-! PROOFS. The RTC, the LED driver and the EEPROM keep their invariants (R34, R119, R168, R170). -/

namespace Sys2Proof.Machine

/-! ## Two-phase devices (R119) -/

/-- What a device plugs into the two-phase machine keeps its invariant `ok`. -/
structure Plugs.Sound {δ : Type} (p : Plugs δ) (ok : δ → Prop) : Prop where
  core         : ∀ d, ok d → coreOk p.last (p.core d)
  core_setCore : ∀ d c, p.core (p.setCore d c) = c
  setCore      : ∀ d c, ok d → coreOk p.last c → c.regs = (p.core d).regs → ok (p.setCore d c)
  select       : ∀ d b d', ok d → p.select d b = .ok d' → ok (p.toPhase d' .dataWrite)
  writeReg     : ∀ d i v, ok d → i ≤ p.last → ok (p.writeReg d i v).1
  writeReg_phase : ∀ d i v, (p.core (p.writeReg d i v).1).phase = (p.core d).phase
  writeReg_quiet : ∀ d i v, ∀ e ∈ (p.writeReg d i v).2, e.quiet = true
  postRead     : ∀ d i, ok d → ok (p.postRead d i)
  postRead_phase : ∀ d i, (p.core (p.postRead d i)).phase = (p.core d).phase
  reset        : ∀ d, ok d → ok (p.reset d)

theorem nextIndex_le (last i : Nat) : nextIndex last i ≤ last := Nat.le_of_lt_succ (Nat.mod_lt _ last.succ_pos)

/-- A phase in which the selection is as free as it was, or that has the selection it needs. -/
theorem coreOk_toPhase (last : Nat) (c : RegCore) (ph : Phase) (h : coreOk last c) (hidle : ph ≠ .idle)
    (hsel : ph = .dataWrite ∨ ph = .dataRead → c.sel.isSome = true) : coreOk last { c with phase := ph } := by
  obtain ⟨hlen, hrange, -, -⟩ := h
  exact ⟨hlen, hrange, hsel, fun h => absurd h hidle⟩

/-- The selection after a data byte stays inside the file (R118). -/
theorem coreOk_nextSel (last i : Nat) (c : RegCore) (h : coreOk last c) (hidle : c.phase ≠ .idle) :
    coreOk last { c with sel := some (nextIndex last i) } := by
  obtain ⟨hlen, -, -, -⟩ := h
  exact ⟨hlen, by simpa using nextIndex_le last i, fun _ => rfl, fun h => absurd h hidle⟩

theorem coreOk_reset (last : Nat) (c : RegCore) (h : coreOk last c) : coreOk last c.reset := by
  obtain ⟨hlen, -, -, -⟩ := h
  exact ⟨hlen, rfl, by simp [RegCore.reset], fun _ => rfl⟩

theorem coreOk_regWrite (last i : Nat) (v : Byte) (c : RegCore) (h : coreOk last c) :
    coreOk last { c with regs := regWrite c.regs i v } := by
  obtain ⟨hlen, hrest⟩ := h
  exact ⟨(length_regWrite c.regs i v).trans hlen, hrest⟩

/-- The selected register exists. -/
theorem coreOk.sel_le {last i : Nat} {c : RegCore} (h : coreOk last c) (hsel : c.sel = some i) : i ≤ last := by
  obtain ⟨-, hrange, -, -⟩ := h
  simpa [hsel] using hrange

section TwoPhase

variable {δ : Type} {p : Plugs δ} {ok : δ → Prop} (hp : p.Sound ok)

include hp

theorem Plugs.Sound.toPhase (d : δ) (ph : Phase) (h : ok d) (hidle : ph ≠ .idle)
    (hsel : ph = .dataWrite ∨ ph = .dataRead → (p.core d).sel.isSome = true) : ok (p.toPhase d ph) :=
  hp.setCore d _ h (coreOk_toPhase _ _ ph (hp.core d h) hidle hsel) rfl

theorem Plugs.Sound.stepSel (d : δ) (i : Nat) (h : ok d) (hidle : (p.core d).phase ≠ .idle) : ok (p.stepSel d i) := by
  unfold Plugs.stepSel
  split
  · exact hp.setCore d _ h (coreOk_nextSel _ i _ (hp.core d h) hidle) rfl
  · exact h

/-- The two-phase machine keeps the invariant of its device, and asks for no timed action. -/
theorem Plugs.Sound.handle (m : BusMessage) (d d' : δ) (es : List Effect) (h : ok d)
    (hd : p.handle m d = .done d' es) : ok d' ∧ ∀ e ∈ es, e.quiet = true := by
  have quiet_one (e : Effect) (he : e.quiet = true) : ∀ x ∈ [e], x.quiet = true := List.forall_mem_singleton.mpr he
  cases handle_eq_done p m d d' es hd with
  | startW => exact ⟨hp.toPhase d _ h (by decide) (by simp), quiet_one _ rfl⟩
  | startR _ hsel => exact ⟨hp.toPhase d _ h (by decide) (fun _ => hsel), quiet_one _ rfl⟩
  | address d1 _ _ hselect => exact ⟨hp.select d _ d1 h hselect, quiet_one _ rfl⟩
  | store i _ hphase hsel =>
    refine ⟨hp.stepSel _ i (hp.writeReg d i _ h ((hp.core d h).sel_le hsel)) ?_, ?_⟩
    · rw [hp.writeReg_phase, hphase]
      decide
    · exact List.forall_mem_append.mpr ⟨hp.writeReg_quiet d i _, quiet_one _ rfl⟩
  | read i _ hphase hsel =>
    refine ⟨hp.stepSel _ i (hp.postRead d i h) ?_, quiet_one _ rfl⟩
    rw [hp.postRead_phase, hphase]
    decide
  | stop => exact ⟨hp.reset d h, by simp⟩

end TwoPhase

/-- The default selection is of a register that exists (R114). -/
theorem coreOk_selected (last : Nat) (c : RegCore) (i : Nat) (h : coreOk last c) (hi : i ≤ last) :
    coreOk last { c with sel := some i, phase := .dataWrite } := by
  obtain ⟨hlen, -, -, -⟩ := h
  exact ⟨hlen, by simpa using hi, fun _ => rfl, by simp⟩

/-! ## The RTC -/

theorem rtcPlugs_sound (c : Config) (timer : Nat) : (rtcPlugs c).Sound (fun d => rtcOk c d ∧ d.timer = timer) where
  core := fun _ ⟨⟨hcore, _⟩, _⟩ => hcore
  core_setCore _ _ := rfl
  setCore := fun _ _ ⟨⟨_, hpin⟩, ht⟩ hc _ => ⟨⟨hc, hpin⟩, ht⟩
  select := by
    rintro d b d' ⟨⟨hcore, hpin⟩, ht⟩ hselect
    rw [rtcPlugs_select] at hselect
    obtain ⟨hb, rfl⟩ := selectIndex_eq_ok _ _ _ _ _ _ hselect
    exact ⟨⟨coreOk_selected c.rtcLast d.core _ hcore hb, hpin⟩, ht⟩
  writeReg := fun _ i v ⟨⟨hcore, hpin⟩, ht⟩ _ => ⟨⟨coreOk_regWrite _ i v _ hcore, hpin⟩, ht⟩
  writeReg_phase _ _ _ := rfl
  writeReg_quiet _ _ _ := List.forall_mem_nil _
  postRead _ _ h := h
  postRead_phase _ _ := rfl
  reset := fun _ ⟨⟨hcore, hpin⟩, ht⟩ => ⟨⟨coreOk_reset _ _ hcore, hpin⟩, ht⟩

/-! The carry chain writes registers and never changes the length of the file. -/

@[simp] theorem setField_length (c : Chain) (i : Nat) (m : Byte) (v : Nat) :
    (c.setField i m v).regs.length = c.regs.length := length_regWrite _ _ _
@[simp] theorem freeField_length (c : Chain) (i : Nat) (m : Byte) :
    (c.freeField i m).regs.length = c.regs.length := length_regWrite _ _ _
@[simp] theorem togglePm_length (c : Chain) : c.togglePm.regs.length = c.regs.length := length_regWrite _ _ _

@[simp] theorem year_length (c : Chain) (carry : Bool) : (c.year carry).regs.length = c.regs.length := by
  unfold Chain.year
  dsimp only
  (repeat' split) <;> simp

@[simp] theorem month_length (c : Chain) (carry : Bool) : (c.month carry).regs.length = c.regs.length := by
  unfold Chain.month
  dsimp only
  (repeat' split) <;> simp

@[simp] theorem date_length (cfg : Config) (c : Chain) : (c.date cfg).regs.length = c.regs.length := by
  unfold Chain.date
  dsimp only
  (repeat' split) <;> simp

@[simp] theorem dayOfWeek_length (c : Chain) : c.dayOfWeek.regs.length = c.regs.length := by
  unfold Chain.dayOfWeek
  dsimp only
  split <;> simp

@[simp] theorem newDay_length (cfg : Config) (c : Chain) : (c.newDay cfg).regs.length = c.regs.length := by
  simp [Chain.newDay]

@[simp] theorem newDayIfAm_length (cfg : Config) (c : Chain) : (c.newDayIfAm cfg).regs.length = c.regs.length := by
  unfold Chain.newDayIfAm
  split <;> simp

@[simp] theorem hours12_length (cfg : Config) (c : Chain) : (c.hours12 cfg).regs.length = c.regs.length := by
  unfold Chain.hours12
  dsimp only
  (repeat' split) <;> simp

@[simp] theorem hours24_length (cfg : Config) (c : Chain) : (c.hours24 cfg).regs.length = c.regs.length := by
  unfold Chain.hours24
  dsimp only
  split <;> simp

@[simp] theorem hours_length (cfg : Config) (c : Chain) : (c.hours cfg).regs.length = c.regs.length := by
  unfold Chain.hours
  dsimp only
  (repeat' split) <;> simp

@[simp] theorem minutes_length (cfg : Config) (c : Chain) : (c.minutes cfg).regs.length = c.regs.length := by
  unfold Chain.minutes
  dsimp only
  (repeat' split) <;> simp

@[simp] theorem seconds_length (cfg : Config) (c : Chain) : (c.seconds cfg).regs.length = c.regs.length := by
  unfold Chain.seconds
  dsimp only
  (repeat' split) <;> simp

theorem rtcSecond_ok (env : Env) (d : Rtc) (h : rtcOk env.cfg d) : rtcOk env.cfg (rtcSecond env d).1 := by
  obtain ⟨⟨hlen, hrest⟩, hpin⟩ := h
  exact ⟨⟨(seconds_length _ _).trans hlen, hrest⟩, hpin⟩

/-- The pin follows the level (R27, R147). -/
theorem rtcSquareWave_ok (cfg : Config) (d : Rtc) (h : rtcOk cfg d) : rtcOk cfg (rtcSquareWave cfg d).1 := by
  obtain ⟨hcore, hpin⟩ := h
  unfold rtcSquareWave
  dsimp only
  split
  · split
    · exact ⟨hcore, hpin⟩
    · exact ⟨hcore, rfl⟩
  · exact ⟨hcore, hpin⟩

theorem rtcSquareWave_timer (cfg : Config) (d : Rtc) : (rtcSquareWave cfg d).1.timer = d.timer := by
  unfold rtcSquareWave
  dsimp only
  (repeat' split) <;> rfl

theorem rtcSquareWave_quiet (cfg : Config) (d : Rtc) : ∀ e ∈ (rtcSquareWave cfg d).2, e.quiet = true := by
  unfold rtcSquareWave
  dsimp only
  (repeat' split) <;> simp [Effect.quiet]

/-- The tick keeps the RTC consistent and its own recurring action (R134, R135). -/
theorem rtcTick_keeps (env : Env) (hs : List (Nat × Payload)) (d : Rtc) (h : rtcOk env.cfg d)
    (hsub : (DevState.rtc d).handles ⊆ hs) : Keeps env hs (.rtc (rtcTick env d).1) (rtcTick env d).2 := by
  have hstep : rtcOk env.cfg (rtcTick env d).1 ∧ (rtcTick env d).1.timer = d.timer ∧
      ∀ e ∈ (rtcTick env d).2, e.quiet = true := by
    unfold rtcTick
    split
    · exact ⟨h, rfl, List.forall_mem_nil _⟩
    · dsimp only
      split
      · refine ⟨rtcSquareWave_ok _ _ (rtcSecond_ok env _ h), rtcSquareWave_timer _ _, ?_⟩
        exact List.forall_mem_append.mpr ⟨List.forall_mem_singleton.mpr rfl, rtcSquareWave_quiet _ _⟩
      · exact ⟨rtcSquareWave_ok _ _ h, rtcSquareWave_timer _ _, rtcSquareWave_quiet _ _⟩
  obtain ⟨hok, htimer, hquiet⟩ := hstep
  exact .of_quiet (decide_eq_true hok) trivial hquiet (by simpa only [DevState.handles, htimer] using hsub)

theorem handle_rtc_keeps (env : Env) (m : BusMessage) (d d' : Rtc) (es : List Effect) (h : rtcOk env.cfg d)
    (hd : (rtcPlugs env.cfg).handle m d = .done d' es) : Keeps env (DevState.rtc d).handles (.rtc d') es := by
  obtain ⟨⟨hok, htimer⟩, hquiet⟩ := (rtcPlugs_sound env.cfg d.timer).handle m d d' es ⟨h, rfl⟩ hd
  exact .of_quiet (decide_eq_true hok) trivial hquiet (by simp [DevState.handles, htimer])

/-! ## The LED driver -/

/-- A selection the LED driver takes is of a register that exists (R207). -/
theorem led_select_eq_ok (d d' : Led) (b : Byte) (h : d.select b = .ok d') :
    ∃ i, i ≤ ledLast ∧ d'.core = { d.core with sel := some i } := by
  unfold Led.select at h
  dsimp only at h
  split at h
  · cases h
  · split at h
    · cases h
    · rename_i hle
      cases h
      exact ⟨_, Nat.le_of_not_lt hle, rfl⟩

theorem ledPlugs_sound : ledPlugs.Sound ledOk where
  core _ h := h
  core_setCore _ _ := rfl
  setCore _ _ _ hc _ := hc
  select := by
    intro d b d' h hselect
    obtain ⟨i, hi, hcore⟩ := led_select_eq_ok d d' b hselect
    have hok := coreOk_selected ledLast d.core i h hi
    show coreOk ledLast { d'.core with phase := .dataWrite }
    rw [hcore]
    exact hok
  writeReg _ i v h _ := coreOk_regWrite _ i v _ h
  writeReg_phase _ _ _ := rfl
  writeReg_quiet _ _ _ := List.forall_mem_nil _
  postRead _ _ h := h
  postRead_phase _ _ := rfl
  reset _ h := coreOk_reset _ _ h

theorem handle_led_keeps (env : Env) (m : BusMessage) (d d' : Led) (es : List Effect) (h : ledOk d)
    (hd : ledPlugs.handle m d = .done d' es) : Keeps env (DevState.led d).handles (.led d') es := by
  obtain ⟨hok, hquiet⟩ := ledPlugs_sound.handle m d d' es h hd
  exact .of_quiet (decide_eq_true hok) trivial hquiet (List.Subset.refl _)

/-- LEDCTL in any phase (log 18). -/
theorem onAddress_led_keeps (env : Env) (ab b : Byte) (d d' : Led) (es : List Effect) (h : ledOk d)
    (hd : ledPlugs.onAddress ab b d = .done d' es) : Keeps env (DevState.led d).handles (.led d') es := by
  obtain ⟨d1, hselect, rfl, rfl⟩ := onAddress_eq_done _ _ _ _ _ _ hd
  exact .of_quiet (decide_eq_true (ledPlugs_sound.select d b d1 h hselect)) trivial (List.forall_mem_singleton.mpr rfl)
    (List.Subset.refl _)

/-! ## The EEPROM -/

theorem eeAddress_le (hi lo : Byte) : eeAddress hi lo ≤ 65536 := by
  unfold eeAddress
  have hhi := hi.isLt
  have hlo := lo.isLt
  omega

/-- EEADDR in any phase (log 18): the pointer assembled from any two bytes is in range. -/
theorem takeLow_ok (c : Config) (d : Eeprom) (hi lo : Byte) (h : eepromOk c d) : eepromOk c (d.takeLow hi lo) := by
  obtain ⟨hwf, hsize, -, -, -, -⟩ := h
  exact ⟨hwf, hsize, by simpa [Eeprom.takeLow] using eeAddress_le hi lo, by simp [Eeprom.takeLow],
    fun _ => rfl, by simp [Eeprom.takeLow]⟩

theorem takeHigh_ok (c : Config) (d : Eeprom) (b : Byte) (h : eepromOk c d) : eepromOk c (d.takeHigh b) := by
  obtain ⟨hwf, hsize, hptr, -, -, -⟩ := h
  exact ⟨hwf, hsize, hptr, by simp [Eeprom.takeHigh], by simp [Eeprom.takeHigh], by simp [Eeprom.takeHigh]⟩

theorem eeprom_reset_ok (c : Config) (d : Eeprom) (h : eepromOk c d) : eepromOk c d.reset := by
  obtain ⟨hwf, hsize, -, -, -, -⟩ := h
  exact ⟨hwf, hsize, rfl, by simp [Eeprom.reset], by simp [Eeprom.reset], fun _ => rfl⟩

/-- A START in which the high byte is dropped; the read phase needs the pointer (R161, R164). -/
theorem eeprom_start_ok (c : Config) (d : Eeprom) (ph : EePhase) (h : eepromOk c d) (hidle : ph ≠ .idle)
    (hlow : ph ≠ .addressingLow) (hdata : ph = .dataWrite ∨ ph = .dataRead → d.ptr.isSome = true) :
    eepromOk c { d with phase := ph, addrHi := none } := by
  obtain ⟨hwf, hsize, hptr, -, -, -⟩ := h
  exact ⟨hwf, hsize, hptr, by simpa using hlow, hdata, fun h => absurd h hidle⟩

/-- The byte at the pointer is below EE_SIZE, so the pointer after it is at most 65536 (R165, R166, R170). -/
theorem eeprom_step_ok (c : Config) (d : Eeprom) (p : Nat) (buf : Memory) (hc : c.eeSize ≤ 65536) (h : eepromOk c d)
    (hp : p < c.eeSize) (hidle : d.phase ≠ .idle) (hwf : Memory.wf buf) (hsize : ∀ e ∈ buf, e.1 < c.eeSize) :
    eepromOk c { d with buf := buf, ptr := some (p + 1) } := by
  obtain ⟨-, -, -, hhi, -, -⟩ := h
  refine ⟨hwf, hsize, ?_, hhi, fun _ => rfl, fun h => absurd h hidle⟩
  simpa using hp.trans_le hc

/-- The messages keep the EEPROM consistent, and it asks for acknowledgements only (R168). -/
theorem handle_eeprom_ok (c : Config) (m : BusMessage) (d d' : Eeprom) (es : List Effect) (hc : c.eeSize ≤ 65536)
    (h : eepromOk c d) (hd : d.handle c m = .done d' es) : eepromOk c d' ∧ ∀ e ∈ es, e.quiet = true := by
  have quiet_one (e : Effect) (he : e.quiet = true) : ∀ x ∈ [e], x.quiet = true := List.forall_mem_singleton.mpr he
  obtain ⟨hwf, hsize, -⟩ := id h
  unfold Eeprom.handle at hd
  split at hd
  case h_1 =>
    cases hd
    exact ⟨eeprom_start_ok c d _ h (by decide) (by decide) (by simp), quiet_one _ rfl⟩
  case h_2 =>
    unfold Eeprom.onStartR at hd
    split at hd <;> cases hd
    rename_i hptr
    exact ⟨eeprom_start_ok c d _ h (by decide) (by decide) (fun _ => by simp [hptr]), quiet_one _ rfl⟩
  case h_3 =>
    unfold Eeprom.onWrite at hd
    split at hd
    case h_1 =>
      cases hd
      exact ⟨takeHigh_ok c d _ h, quiet_one _ rfl⟩
    case h_2 =>
      cases hd
      exact ⟨takeLow_ok c d _ _ h, quiet_one _ rfl⟩
    case h_3 p hphase _ =>
      unfold Eeprom.onStore at hd
      split at hd <;> cases hd
      rename_i hp
      have hlt := Nat.lt_of_not_le hp
      have hmem : ∀ e ∈ memWrite d.buf p m.data, e.1 < c.eeSize := by
        intro e he
        rcases memWrite_mem _ _ _ e he with rfl | hold
        · exact hlt
        · exact hsize e hold
      exact ⟨eeprom_step_ok c d p _ hc h hlt (by simp [hphase]) (memWrite_wf _ _ _ hwf) hmem, quiet_one _ rfl⟩
    case h_4 => cases hd
  case h_4 =>
    unfold Eeprom.onRead at hd
    split at hd
    · rename_i p hphase _
      split at hd <;> cases hd
      rename_i hp
      exact ⟨eeprom_step_ok c d p d.buf hc h (Nat.lt_of_not_le hp) (by simp [hphase]) hwf hsize, quiet_one _ rfl⟩
    · cases hd
  case h_5 =>
    cases hd
    exact ⟨eeprom_reset_ok c d h, List.forall_mem_nil _⟩
  case h_6 => cases hd

theorem handle_eeprom_keeps (env : Env) (m : BusMessage) (d d' : Eeprom) (es : List Effect)
    (hc : env.cfg.eeSize ≤ 65536) (h : eepromOk env.cfg d) (hd : d.handle env.cfg m = .done d' es) :
    Keeps env (DevState.eeprom d).handles (.eeprom d') es := by
  obtain ⟨hok, hquiet⟩ := handle_eeprom_ok env.cfg m d d' es hc h hd
  exact .of_quiet (decide_eq_true hok) trivial hquiet (List.Subset.refl _)

theorem address_eeprom_keeps (env : Env) (ab hi lo : Byte) (d d' : Eeprom) (es : List Effect)
    (h : eepromOk env.cfg d) (hd : d.address ab hi lo = .done d' es) :
    Keeps env (DevState.eeprom d).handles (.eeprom d') es := by
  cases hd
  exact .of_quiet (decide_eq_true (takeLow_ok _ _ hi lo (takeHigh_ok _ d hi h))) trivial
    (by simp [ackOnly, Effect.quiet]) (List.Subset.refl _)

end Sys2Proof.Machine
end

section
/-! PROOFS. The keypad keeps its FIFO, its interrupt and its pending releases consistent (R34, R181 to R192). -/

namespace Sys2Proof.Machine

/-! ## The FIFO -/

/-- The file holds `n` events (R21, R34 item 3): the count register is `n`, the low `n` slots hold events, the slots
above hold 0x00. -/
def HoldsEvents (regs : List Byte) (n : Nat) : Prop :=
  n ≤ kpFifoCap ∧ regRead regs kpKeyLckEc = BitVec.ofNat 8 n ∧
  ∀ i < kpFifoCap, if i < n then keyEventCode (kpSlot regs i) ≠ 0 else kpSlot regs i = 0

/-- A byte with bits 7:4 clear is the number in its bits 3:0. -/
theorem byte_eq_of_lowNibble (b : Byte) (h : b &&& 0xF0 = 0) : b = BitVec.ofNat 8 (b.extractLsb' 0 4).toNat := by
  have hall : ∀ x : Byte, x &&& 0xF0 = 0 → x = BitVec.ofNat 8 (x.extractLsb' 0 4).toNat := by decide
  exact hall b h

theorem lowNibble_of_count (n : Nat) (hn : n ≤ kpFifoCap) :
    (BitVec.ofNat 8 n).extractLsb' 0 4 = BitVec.ofNat 4 n ∧ BitVec.ofNat 8 n &&& 0xF0 = 0 ∧
      (BitVec.ofNat 4 n).toNat = n := by
  have hall : ∀ x < 11, (BitVec.ofNat 8 x).extractLsb' 0 4 = BitVec.ofNat 4 x ∧ BitVec.ofNat 8 x &&& 0xF0 = 0 ∧
      (BitVec.ofNat 4 x).toNat = x := by decide
  exact hall n (Nat.lt_succ_of_le hn)

theorem HoldsEvents.count {regs : List Byte} {n : Nat} (h : HoldsEvents regs n) : kpCount regs = n := by
  obtain ⟨hn, hcount, -⟩ := h
  obtain ⟨hlow, -, hnat⟩ := lowNibble_of_count n hn
  rw [kpCount, hcount, hlow, hnat]

theorem fifoOk_iff (regs : List Byte) : fifoOk regs ↔ HoldsEvents regs (kpCount regs) := by
  constructor
  · rintro ⟨hcap, hhigh, hslots⟩
    exact ⟨hcap, byte_eq_of_lowNibble _ hhigh, hslots⟩
  · rintro ⟨hcap, hcount, hslots⟩
    exact ⟨hcap, hcount ▸ (lowNibble_of_count _ hcap).2.1, hslots⟩

theorem HoldsEvents.fifoOk {regs : List Byte} {n : Nat} (h : HoldsEvents regs n) : fifoOk regs :=
  (fifoOk_iff regs).mpr (h.count.symm ▸ h)

/-- The count written over a count leaves the new count. -/
theorem HoldsEvents.withCount {regs : List Byte} {n : Nat} (h : HoldsEvents regs n) (m : Nat) :
    kpWithCount regs m = BitVec.ofNat 8 m := by
  obtain ⟨hn, hcount, -⟩ := h
  rw [kpWithCount, hcount, (lowNibble_of_count n hn).2.1]
  simp

/-- A register outside the FIFO. -/
def outsideFifo (i : Nat) : Prop := i < kpKeyLckEc ∨ kpKeyEventA + kpFifoCap ≤ i

theorem HoldsEvents.write_outside {regs : List Byte} {n : Nat} (h : HoldsEvents regs n) (i : Nat) (v : Byte)
    (hi : outsideFifo i) : HoldsEvents (regWrite regs i v) n := by
  obtain ⟨hn, hcount, hslots⟩ := h
  unfold outsideFifo kpKeyLckEc kpKeyEventA kpFifoCap at hi
  refine ⟨hn, ?_, fun j hj => ?_⟩
  · rw [regRead_regWrite_other _ _ _ _ (by rw [kpKeyLckEc]; omega), hcount]
  · have hslot : kpSlot (regWrite regs i v) j = kpSlot regs j :=
      regRead_regWrite_other _ _ _ _ (by unfold kpFifoCap at hj; rw [kpKeyEventA]; omega)
    rw [hslot]
    exact hslots j hj

/-- An event queued (R181): the count goes up and the lowest free slot takes the event. -/
theorem HoldsEvents.push {regs : List Byte} {n : Nat} (h : HoldsEvents regs n) (b : Byte)
    (hlen : regs.length = kpLast + 1) (hroom : n < kpFifoCap) (hb : keyEventCode b ≠ 0) :
    HoldsEvents (regWrite (regWrite regs kpKeyLckEc (kpWithCount regs (n + 1))) (kpKeyEventA + n) b) (n + 1) := by
  have hcount := h.withCount (n + 1)
  obtain ⟨-, -, hslots⟩ := h
  unfold kpFifoCap at hroom
  have hslot_ne (i : Nat) : kpKeyLckEc ≠ kpKeyEventA + i := by
    rw [kpKeyLckEc, kpKeyEventA]
    omega
  refine ⟨hroom, ?_, fun i hi => ?_⟩
  · rw [regRead_regWrite_other _ _ _ _ (hslot_ne n).symm, regRead_regWrite_same _ _ _ (by rw [hlen]; decide), hcount]
  · by_cases hin : i = n
    · subst hin
      have hnew : kpSlot (regWrite (regWrite regs kpKeyLckEc (kpWithCount regs (i + 1))) (kpKeyEventA + i) b) i = b :=
        regRead_regWrite_same _ _ _ (by rw [length_regWrite, hlen, kpKeyEventA, kpLast]; omega)
      rw [if_pos (Nat.lt_succ_self i), hnew]
      exact hb
    · have hold : kpSlot (regWrite (regWrite regs kpKeyLckEc (kpWithCount regs (n + 1))) (kpKeyEventA + n) b) i =
          kpSlot regs i := by
        rw [kpSlot, regRead_regWrite_other _ _ _ _ (by omega), regRead_regWrite_other _ _ _ _ (hslot_ne i), kpSlot]
      rw [hold]
      simpa [Nat.lt_succ_iff, Nat.le_iff_lt_or_eq, hin] using hslots i hi

theorem regRead_fifoPopped (regs : List Byte) (n j : Nat) (hj : j < regs.length) :
    regRead (fifoPopped regs n) j =
      if j = kpKeyLckEc then kpWithCount regs (n - 1)
      else if kpKeyEventA ≤ j ∧ j + 1 < kpKeyEventA + n then regRead regs (j + 1)
      else if j + 1 = kpKeyEventA + n then 0
      else regRead regs j := by
  simp [regRead, fifoPopped, List.getD_eq_getElem?_getD, hj]

/-- An event taken out (R186): the events above it move down, and the slot they leave is cleared. -/
theorem HoldsEvents.pop {regs : List Byte} {n : Nat} (h : HoldsEvents regs n) (hlen : regs.length = kpLast + 1) :
    HoldsEvents (fifoPopped regs n) (n - 1) := by
  have hcount := h.withCount (n - 1)
  obtain ⟨hcap, -, hslots⟩ := h
  unfold kpFifoCap at hcap
  refine ⟨by unfold kpFifoCap; omega, ?_, fun i hi => ?_⟩
  · rw [regRead_fifoPopped _ _ _ (by rw [hlen]; decide), if_pos rfl, hcount]
  · unfold kpFifoCap at hi
    have hpopped := regRead_fifoPopped regs n (kpKeyEventA + i) (by rw [hlen, kpKeyEventA, kpLast]; omega)
    rw [if_neg (by rw [kpKeyEventA, kpKeyLckEc]; omega)] at hpopped
    rw [kpSlot, hpopped]
    by_cases hmoved : i < n - 1
    · have habove := hslots (i + 1) (by unfold kpFifoCap; omega)
      rw [if_pos (by omega)] at habove
      rw [if_pos hmoved, if_pos (by omega)]
      exact habove
    · rw [if_neg hmoved, if_neg (by omega)]
      by_cases hlast : i + 1 = n
      · rw [if_pos (by omega)]
      · have habove := hslots i (by unfold kpFifoCap; omega)
        rw [if_neg (by omega)] at habove
        rw [if_neg (by omega)]
        exact habove

/-! ## The keypad -/

/-- The keypad is consistent and holds these pending releases. -/
abbrev keypadHolding (releases : List (Nat × Nat)) (d : Keypad) : Prop :=
  keypadOk d ∧ d.pendingRelease = releases

/-- A new register file with the same status register. -/
theorem keypadOk_withRegs (d : Keypad) (regs : List Byte) (n : Nat) (h : keypadOk d)
    (hlen : regs.length = d.core.regs.length) (hfifo : HoldsEvents regs n)
    (hstat : regRead regs kpIntStat = regRead d.core.regs kpIntStat) : keypadOk (d.withRegs regs) := by
  obtain ⟨⟨hcorelen, hcore⟩, -, ⟨hline, hmask, hbit⟩, hrising, hcodes⟩ := h
  exact ⟨⟨hlen.trans hcorelen, hcore⟩, hfifo.fifoOk, ⟨hline, hstat.trans hmask, hbit⟩, hrising, hcodes⟩

/-- Status and mask are written together. -/
theorem keypadOk_withInterrupt (d : Keypad) (intN : Bool) (mask : Byte) (h : keypadOk d)
    (hline : intN = false ↔ mask ≠ 0) (hbit : mask &&& 0xFE = 0) :
    keypadOk { d.withRegs (regWrite d.core.regs kpIntStat mask) with intN := intN, unacked := mask } := by
  obtain ⟨hcore, hfifo, -, hrising, hcodes⟩ := h
  obtain ⟨hlen, -⟩ := id hcore
  have hstat : regRead (regWrite d.core.regs kpIntStat mask) kpIntStat = mask :=
    regRead_regWrite_same _ _ _ (by rw [hlen]; decide)
  exact ⟨coreOk_regWrite _ _ _ _ hcore,
    (((fifoOk_iff _).mp hfifo).write_outside _ _ (.inl (by decide))).fifoOk, ⟨hline, hstat, hbit⟩, hrising, hcodes⟩

theorem queueEvent_ok (d : Keypad) (b : Byte) (h : keypadOk d) (hb : keyEventCode b ≠ 0) :
    keypadOk (d.queueEvent b).1 := by
  obtain ⟨⟨hlen, -⟩, hfifo, ⟨-, hmask, hbit⟩, -⟩ := id h
  unfold Keypad.queueEvent
  dsimp only
  split
  · exact h
  · rename_i hroom
    have hstat_ne : kpKeyEventA + kpCount d.core.regs ≠ kpIntStat := by
      rw [kpKeyEventA, kpIntStat]
      omega
    have hpush := ((fifoOk_iff _).mp hfifo).push b hlen (Nat.lt_of_not_le hroom) hb
    generalize hregs : regWrite (regWrite d.core.regs kpKeyLckEc (kpWithCount d.core.regs (kpCount d.core.regs + 1)))
      (kpKeyEventA + kpCount d.core.regs) b = regs at hpush
    have hstat : regRead regs kpIntStat = regRead d.core.regs kpIntStat := by
      rw [← hregs, regRead_regWrite_other _ _ _ _ hstat_ne, regRead_regWrite_other _ _ _ _ (by decide)]
    have hqueued : keypadOk (d.withRegs regs) := by
      refine keypadOk_withRegs d regs _ h ?_ hpush hstat
      rw [← hregs, length_regWrite, length_regWrite]
    split
    · have hbits : ∀ x : Byte, x &&& 0xFE = 0 → (x ||| 0x01) &&& 0xFE = 0 := by decide
      have hone := hbits d.unacked hbit
      have hint := keypadOk_withInterrupt (d.withRegs regs) false (d.unacked ||| 0x01) hqueued (by simp) hone
      rw [hstat, hmask]
      exact hint
    · exact hqueued

theorem queueEvent_releases (d : Keypad) (b : Byte) : (d.queueEvent b).1.pendingRelease = d.pendingRelease := by
  unfold Keypad.queueEvent
  dsimp only
  (repeat' split) <;> rfl

theorem queueEvent_quiet (d : Keypad) (b : Byte) : ∀ e ∈ (d.queueEvent b).2, e.quiet = true := by
  unfold Keypad.queueEvent
  dsimp only
  (repeat' split) <;> simp [Effect.quiet]

/-- A raw event, also one that is refused, touches no timed action (R181). -/
theorem addRawEvent_holding (d : Keypad) (b : Byte) (h : keypadOk d) :
    keypadHolding d.pendingRelease (d.addRawEvent b).1 ∧ ∀ e ∈ (d.addRawEvent b).2, e.quiet = true := by
  unfold Keypad.addRawEvent
  split
  · exact ⟨⟨h, rfl⟩, List.forall_mem_nil _⟩
  · rename_i hb
    exact ⟨⟨queueEvent_ok d b h hb, queueEvent_releases d b⟩, queueEvent_quiet d b⟩

theorem addEvent_holding (cfg : Config) (d : Keypad) (press : Bool) (row col : Nat) (h : keypadOk d) :
    keypadHolding d.pendingRelease (d.addEvent cfg press row col).1 ∧
      ∀ e ∈ (d.addEvent cfg press row col).2, e.quiet = true := by
  unfold Keypad.addEvent
  split
  · exact addRawEvent_holding d _ h
  · exact ⟨⟨h, rfl⟩, List.forall_mem_nil _⟩

theorem keypadOk_withReleases (d : Keypad) (releases : List (Nat × Nat)) (h : keypadOk d) (hrising : Rising releases)
    (hcodes : ∀ e ∈ releases, 1 ≤ e.1 ∧ e.1 ≤ 127) : keypadOk { d with pendingRelease := releases } := by
  obtain ⟨hcore, hfifo, hint, -, -⟩ := h
  exact ⟨hcore, hfifo, hint, hrising, hcodes⟩

theorem dropRelease_ok (d : Keypad) (code : Nat) (h : keypadOk d) : keypadOk (d.dropRelease code) := by
  obtain ⟨-, -, -, hrising, hcodes⟩ := id h
  exact keypadOk_withReleases d _ h (mapErase_rising _ _ hrising)
    fun e he => hcodes e ((mapErase_mem _ _ e).mp he).1

theorem handles_keypad_of_releases (d d' : Keypad) (h : d'.pendingRelease = d.pendingRelease) :
    (DevState.keypad d').handles = (DevState.keypad d).handles := by
  simp only [DevState.handles, h]

/-- Without the release of a key the keypad holds its other handles, and none on that key. -/
theorem handles_dropRelease (d : Keypad) (code : Nat) :
    (DevState.keypad (d.dropRelease code)).handles ⊆ (DevState.keypad d).handles ∧
    ∀ id, (id, .keyRelease code) ∉ (DevState.keypad (d.dropRelease code)).handles := by
  constructor
  · exact List.map_subset _ (List.filter_subset_self _)
  · intro id hmem
    obtain ⟨e, he, heq⟩ := List.mem_map.mp hmem
    obtain ⟨-, hcode⟩ := Prod.mk.inj heq
    exact ((mapErase_mem _ _ e).mp he).2 (Payload.keyRelease.inj hcode)

/-- The code of a key that exists fits in seven bits (R68, D25). -/
theorem keyCode_bounds (cfg : Config) (row col : Nat) (hc : keyCode (cfg.kpRows - 1) (cfg.kpCols - 1) ≤ 127)
    (h : keyExists cfg row col = true) : 1 ≤ keyCode row col ∧ keyCode row col ≤ 127 := by
  simp only [keyExists, Bool.and_eq_true, decide_eq_true_eq] at h
  obtain ⟨hrow, hcol⟩ := h
  unfold keyCode at hc ⊢
  omega

/-- A press and its release (R183): the handle on the old release is given up for one on the new. -/
theorem pressAndRelease_keeps (env : Env) (d : Keypad) (row col : Nat)
    (hc : keyCode (env.cfg.kpRows - 1) (env.cfg.kpCols - 1) ≤ 127) (h : keypadOk d) :
    Keeps env (DevState.keypad d).handles (.keypad (d.pressAndRelease env row col).1)
      (d.pressAndRelease env row col).2 := by
  by_cases hkey : keyExists env.cfg row col = true
  · rw [pressAndRelease_eq env d row col hkey]
    have hbounds := keyCode_bounds env.cfg row col hc hkey
    generalize keyCode row col = code at hbounds ⊢
    obtain ⟨⟨hok, hreleases⟩, hquiet⟩ :=
      addEvent_holding env.cfg (d.dropRelease code) true row col (dropRelease_ok d code h)
    generalize (d.dropRelease code).addEvent env.cfg true row col = pressed at hok hreleases hquiet
    obtain ⟨-, -, -, hrising, hcodes⟩ := id hok
    obtain ⟨hsub, hgone⟩ := handles_dropRelease d code
    refine ⟨decide_eq_true (keypadOk_withReleases _ _ hok (mapInsert_rising _ _ _ hrising) fun e he => ?_), trivial,
      (env.id, .keyRelease code) :: (DevState.keypad (d.dropRelease code)).handles, ?_, ?_⟩
    · rcases mapInsert_mem _ _ _ _ he with rfl | hold
      · exact hbounds
      · exact hcodes e hold
    · have hend := Grants.quiet_append env.id (DevState.keypad (d.dropRelease code)).handles _ pressed.2 _ hquiet
        (.schedule _ env.cfg.kpReleaseDelayUs (.keyRelease code) _ _ [] (by simp) (.nil _ _))
      rw [List.append_assoc]
      cases hfind : mapFind? d.pendingRelease code with
      | none =>
        have hsame : d.dropRelease code = d := by rw [Keypad.dropRelease, mapErase_of_find?_none _ _ hfind]
        rw [hsame] at hend ⊢
        exact hend
      | some id =>
        have hold : (id, Payload.keyRelease code) ∈ (DevState.keypad d).handles :=
          List.mem_map.mpr ⟨(code, id), mapFind?_mem _ _ _ hfind, rfl⟩
        exact .cancel _ id _ _ _ _ _ hold hsub (hgone id) hend
    · intro x hx
      obtain ⟨e, he, rfl⟩ := List.mem_map.mp hx
      rcases mapInsert_mem _ _ _ _ he with rfl | hold
      · exact List.mem_cons_self
      · refine List.mem_cons_of_mem _ (List.mem_map.mpr ⟨e, ?_, rfl⟩)
        rw [← hreleases]
        exact hold
  · rw [pressAndRelease_refused env d row col hkey]
    exact .of_quiet (decide_eq_true h) trivial (List.forall_mem_nil _) (List.Subset.refl _)

/-- The harness calls keep the keypad consistent. -/
theorem keyCall_keeps (e : HostEvent) (k : Nat) (f : Env → Keypad → Keypad × List Effect) (hcall : KeyCall e k f)
    (env : Env) (d : Keypad) (hc : keyCode (env.cfg.kpRows - 1) (env.cfg.kpCols - 1) ≤ 127) (h : keypadOk d) :
    Keeps env (DevState.keypad d).handles (.keypad (f env d).1) (f env d).2 := by
  have of_holding (r : Keypad × List Effect)
      (hr : keypadHolding d.pendingRelease r.1 ∧ ∀ e ∈ r.2, e.quiet = true) :
      Keeps env (DevState.keypad d).handles (.keypad r.1) r.2 := by
    obtain ⟨⟨hok, hreleases⟩, hquiet⟩ := hr
    exact .of_quiet (decide_eq_true hok) trivial hquiet
      (handles_keypad_of_releases d r.1 hreleases ▸ List.Subset.refl _)
  cases hcall with
  | event k press row col => exact of_holding _ (addEvent_holding env.cfg d press row col h)
  | raw k b => exact of_holding _ (addRawEvent_holding d b h)
  | pressAndRelease k row col => exact pressAndRelease_keeps env d row col hc h
  | pressAndReleaseCode k code =>
    dsimp only
    split
    · exact of_holding (d, []) ⟨⟨h, rfl⟩, List.forall_mem_nil _⟩
    · exact pressAndRelease_keeps env d _ _ hc h

/-- A release that fires (R184) is no longer held, whichever action it was. -/
theorem releaseFire_keeps (env : Env) (hs : List (Nat × Payload)) (d : Keypad) (code : Nat) (h : keypadOk d)
    (hsub : (DevState.keypad (d.dropRelease code)).handles ⊆ hs) :
    Keeps env hs (.keypad (d.releaseFire code).1) (d.releaseFire code).2 := by
  obtain ⟨⟨hok, hreleases⟩, hquiet⟩ :=
    addRawEvent_holding (d.dropRelease code) (keyEventByte false code) (dropRelease_ok d code h)
  refine .of_quiet (decide_eq_true hok) trivial hquiet ?_
  exact handles_keypad_of_releases (d.dropRelease code) _ hreleases ▸ hsub

/-! ## The bus side (R175, R186 to R191) -/

/-- The acknowledge clears status and mask alike, and releases the line with the last bit (R188). -/
theorem acknowledge_ok (d : Keypad) (v : Byte) (h : keypadOk d) : keypadOk (d.acknowledge v).1 := by
  obtain ⟨-, -, ⟨hline, hmask, hbit⟩, -⟩ := id h
  have hclear : andNot d.unacked v &&& 0xFE = 0 := by
    rw [andNot, BitVec.and_assoc, BitVec.and_comm (~~~v), ← BitVec.and_assoc, hbit]
    exact BitVec.zero_and
  unfold Keypad.acknowledge
  rw [hmask]
  dsimp only
  split
  · rename_i hup
    exact keypadOk_withInterrupt d true _ h (by simpa using hup.1) hclear
  · rename_i hstays
    refine keypadOk_withInterrupt d d.intN _ h ⟨fun hlow hzero => hstays ⟨hzero, hlow⟩, fun hset => hline.mpr ?_⟩ hclear
    intro hzero
    exact hset (by rw [andNot, hzero]; exact BitVec.zero_and)

theorem keypad_writeReg_ok (d : Keypad) (i : Nat) (v : Byte) (h : keypadOk d) : keypadOk (d.writeReg i v).1 := by
  unfold Keypad.writeReg
  split
  · exact acknowledge_ok d v h
  · rename_i hstat
    split
    · exact h
    · rename_i hfifo
      obtain ⟨-, hevents, -⟩ := id h
      have hout : outsideFifo i := by
        unfold outsideFifo kpKeyLckEc kpKeyEventA kpFifoCap at *
        omega
      exact keypadOk_withRegs d _ _ h (length_regWrite _ _ _) (((fifoOk_iff _).mp hevents).write_outside i v hout)
        (regRead_regWrite_other _ _ _ _ hstat)

theorem keypad_postRead_ok (d : Keypad) (i : Nat) (h : keypadOk d) : keypadOk (d.postRead i) := by
  unfold Keypad.postRead Keypad.pop
  dsimp only
  split
  · split
    · exact h
    · obtain ⟨⟨hlen, -⟩, hevents, -⟩ := id h
      refine keypadOk_withRegs d _ _ h (by simp [fifoPopped]) (((fifoOk_iff _).mp hevents).pop hlen) ?_
      rw [regRead_fifoPopped _ _ _ (by rw [hlen]; decide), if_neg (by decide),
        if_neg (by simp [kpIntStat, kpKeyEventA]),
        if_neg (by rw [kpIntStat, kpKeyEventA]; omega)]
  · exact h

/-- The hooks of the keypad write registers, status and line only. -/
theorem keypad_writeReg_rest (d : Keypad) (i : Nat) (v : Byte) :
    (d.writeReg i v).1.pendingRelease = d.pendingRelease ∧ (d.writeReg i v).1.core.phase = d.core.phase ∧
      ∀ e ∈ (d.writeReg i v).2, e.quiet = true := by
  unfold Keypad.writeReg Keypad.acknowledge
  dsimp only
  (repeat' split) <;> exact ⟨rfl, rfl, by simp [Effect.quiet]⟩

theorem keypad_postRead_rest (d : Keypad) (i : Nat) :
    (d.postRead i).pendingRelease = d.pendingRelease ∧ (d.postRead i).core.phase = d.core.phase := by
  unfold Keypad.postRead Keypad.pop
  dsimp only
  (repeat' split) <;> exact ⟨rfl, rfl⟩

/-- A new core with the same registers. -/
theorem keypadOk_withCore (d : Keypad) (c : RegCore) (h : keypadOk d) (hc : coreOk kpLast c)
    (hregs : c.regs = d.core.regs) : keypadOk { d with core := c } := by
  obtain ⟨-, hfifo, ⟨hline, hmask, hbit⟩, hrising, hcodes⟩ := h
  exact ⟨hc, hregs ▸ hfifo, ⟨hline, hregs ▸ hmask, hbit⟩, hrising, hcodes⟩

theorem kpPlugs_sound (releases : List (Nat × Nat)) : kpPlugs.Sound (keypadHolding releases) where
  core := fun _ ⟨⟨hcore, _⟩, _⟩ => hcore
  core_setCore _ _ := rfl
  setCore := fun d c ⟨h, hr⟩ hc hregs => ⟨keypadOk_withCore d c h hc hregs, hr⟩
  select := by
    rintro d b d' ⟨h, hr⟩ hselect
    rw [kpPlugs_select] at hselect
    obtain ⟨hb, rfl⟩ := selectIndex_eq_ok _ _ _ _ _ _ hselect
    obtain ⟨hcore, -⟩ := id h
    exact ⟨keypadOk_withCore d _ h (coreOk_selected kpLast d.core _ hcore hb) rfl, hr⟩
  writeReg := fun d i v ⟨h, hr⟩ _ => ⟨keypad_writeReg_ok d i v h, (keypad_writeReg_rest d i v).1.trans hr⟩
  writeReg_phase d i v := (keypad_writeReg_rest d i v).2.1
  writeReg_quiet d i v := (keypad_writeReg_rest d i v).2.2
  postRead := fun d i ⟨h, hr⟩ => ⟨keypad_postRead_ok d i h, (keypad_postRead_rest d i).1.trans hr⟩
  postRead_phase d i := (keypad_postRead_rest d i).2
  reset := fun d ⟨h, hr⟩ => ⟨keypadOk_withCore d _ h (coreOk_reset _ _ h.1) rfl, hr⟩

theorem handle_keypad_keeps (env : Env) (m : BusMessage) (d d' : Keypad) (es : List Effect) (h : keypadOk d)
    (hd : kpPlugs.handle m d = .done d' es) : Keeps env (DevState.keypad d).handles (.keypad d') es := by
  obtain ⟨⟨hok, hreleases⟩, hquiet⟩ := (kpPlugs_sound d.pendingRelease).handle m d d' es ⟨h, rfl⟩ hd
  exact .of_quiet (decide_eq_true hok) trivial hquiet (handles_keypad_of_releases d d' hreleases ▸ List.Subset.refl _)

end Sys2Proof.Machine
end

section
/-! PROOFS. The display keeps its screen in bounds and its parser consistent (R25, R26, R222 to R246). -/

namespace Sys2Proof.Machine

/-! ## The screen -/

/-- Cursor, magnification, pixels and text within their bounds (R25, R26). -/
structure ScreenOk (c : Config) (d : Display) : Prop where
  cx   : d.cx < c.dispW
  cy   : d.cy < c.dispH
  magX : 1 ≤ d.magX ∧ d.magX ≤ 4
  magY : 1 ≤ d.magY ∧ d.magY ≤ 2
  px   : d.px.length = c.dispH ∧ ∀ row ∈ d.px, row.length = c.dispW
  text : d.text.length = textRows c ∧ ∀ row ∈ d.text, row.length = textCols c

theorem displayOk_iff (c : Config) (d : Display) :
    displayOk c d ↔ ScreenOk c d ∧ parserOk c d = true ∧ (d.phase = .idle → d.pstate = .idle) := by
  constructor
  · rintro ⟨hcx, hcy, hmx, hmx', hmy, hmy', hpx, hpx', htext, htext', hparser, hphase⟩
    exact ⟨⟨hcx, hcy, ⟨hmx, hmx'⟩, ⟨hmy, hmy'⟩, ⟨hpx, hpx'⟩, ⟨htext, htext'⟩⟩, hparser, hphase⟩
  · rintro ⟨⟨hcx, hcy, ⟨hmx, hmx'⟩, ⟨hmy, hmy'⟩, ⟨hpx, hpx'⟩, ⟨htext, htext'⟩⟩, hparser, hphase⟩
    exact ⟨hcx, hcy, hmx, hmx', hmy, hmy', hpx, hpx', htext, htext', hparser, hphase⟩

/-- The sizes of the screen and of the glyph are positive (R4). -/
structure SizesOk (c : Config) : Prop where
  dispW  : 1 ≤ c.dispW
  dispH  : 1 ≤ c.dispH
  glyphW : 1 ≤ c.glyphW
  glyphH : 1 ≤ c.glyphH

theorem sizesOk_of_configOk (c : Config) (h : configOk c) : SizesOk c := by
  obtain ⟨-, -, -, -, -, -, -, -, -, -, -, hw, hh, hgw, hgh, -⟩ := h
  exact ⟨hw, hh, hgw, hgh⟩

theorem gw_pos (c : Config) (d : Display) (hc : SizesOk c) (h : ScreenOk c d) : 0 < d.gw c :=
  Nat.mul_pos hc.glyphW h.magX.1

theorem gh_pos (c : Config) (d : Display) (hc : SizesOk c) (h : ScreenOk c d) : 0 < d.gh c :=
  Nat.mul_pos hc.glyphH h.magY.1

/-- `d'` is `d` but for what is on the screen and where the cursor stands. -/
def SameControl (d d' : Display) : Prop :=
  d' = { d with cx := d'.cx, cy := d'.cy, magX := d'.magX, magY := d'.magY, px := d'.px, text := d'.text }

/-- An operation on the screen answered a screen in bounds, and nothing but that and a record (R228 to R243). -/
structure Drawn (c : Config) (d : Display) (r : Display × List Effect) : Prop where
  screen  : ScreenOk c r.1
  control : SameControl d r.1
  quiet   : ∀ e ∈ r.2, e.quiet = true

theorem Drawn.unchanged {c : Config} {d : Display} (h : ScreenOk c d) : Drawn c d (d, []) :=
  ⟨h, rfl, List.forall_mem_nil _⟩

theorem Drawn.silent {c : Config} {d d' : Display} (h : ScreenOk c d' ∧ SameControl d d') : Drawn c d (d', []) :=
  ⟨h.1, h.2, List.forall_mem_nil _⟩

theorem Drawn.logged {c : Config} {d : Display} (h : ScreenOk c d) (bytes : List Byte) :
    Drawn c d (d, [.log bytes]) :=
  ⟨h, rfl, List.forall_mem_singleton.mpr rfl⟩

/-- The row below, or the first one where the next row does not fit (R230, R234). -/
theorem nextRow_lt (c : Config) (d : Display) (hc : SizesOk c) (h : ScreenOk c d) :
    (if c.dispH < d.cy + d.gh c + d.gh c then 0 else d.cy + d.gh c) < c.dispH := by
  have hpos := gh_pos c d hc h
  have hh := hc.dispH
  split <;> omega

theorem advance_ok (c : Config) (d : Display) (hc : SizesOk c) (h : ScreenOk c d) :
    ScreenOk c (d.advance c) ∧ SameControl d (d.advance c) := by
  have hrow := nextRow_lt c d hc h
  have hpos := gw_pos c d hc h
  unfold Display.advance
  dsimp only
  split
  · exact ⟨{ h with cx := hc.dispW, cy := hrow }, rfl⟩
  · exact ⟨{ h with cx := by show d.cx + d.gw c < c.dispW; omega }, rfl⟩

theorem lineFeed_ok (c : Config) (d : Display) (hc : SizesOk c) (h : ScreenOk c d) : ScreenOk c (d.lineFeed c) :=
  { h with cy := nextRow_lt c d hc h }

theorem home_ok (c : Config) (d : Display) (hc : SizesOk c) (h : ScreenOk c d) : ScreenOk c d.home :=
  { h with cx := hc.dispW, cy := hc.dispH }

theorem carriageReturn_ok (c : Config) (d : Display) (hc : SizesOk c) (h : ScreenOk c d) :
    ScreenOk c d.carriageReturn :=
  { h with cx := hc.dispW }

theorem clear_ok (c : Config) (d : Display) (hc : SizesOk c) (h : ScreenOk c d) : ScreenOk c (d.clear c) where
  cx := hc.dispW
  cy := hc.dispH
  magX := h.magX
  magY := h.magY
  px := by simp [Display.clear, blankPixels]
  text := by simp [Display.clear, blankText]

theorem initialise_ok (c : Config) (d : Display) (hc : SizesOk c) (h : ScreenOk c d) : ScreenOk c (d.initialise c) :=
  { clear_ok c d hc h with magX := by simp [Display.initialise], magY := by simp [Display.initialise] }

/-- The last glyph place of a line is on the display (R232). -/
theorem lastColumn_lt (gw w : Nat) (hpos : 0 < gw) (hfits : gw ≤ w) : (w / gw - 1) * gw < w := by
  have hq : 1 ≤ w / gw := (Nat.one_le_div_iff hpos).mpr hfits
  have hle : w / gw * gw ≤ w := Nat.div_mul_le_self w gw
  rw [Nat.sub_one_mul]
  have hge : gw ≤ w / gw * gw := Nat.le_mul_of_pos_left gw hq
  omega

theorem backspace_drawn (env : Env) (d : Display) (hc : SizesOk env.cfg) (h : ScreenOk env.cfg d) :
    Drawn env.cfg d (d.backspace env) := by
  have hcx := h.cx
  have hcy := h.cy
  have hup : d.cy - d.gh env.cfg < env.cfg.dispH := by omega
  unfold Display.backspace
  dsimp only
  split
  · exact ⟨{ h with cx := by show d.cx - d.gw env.cfg < env.cfg.dispW; omega }, rfl, List.forall_mem_nil _⟩
  · split
    · split
      · rename_i hfits
        exact ⟨{ h with cx := lastColumn_lt _ _ (gw_pos _ d hc h) hfits, cy := hup }, rfl, List.forall_mem_nil _⟩
      · exact ⟨{ h with cx := Nat.mod_lt _ hc.dispW, cy := hup }, rfl, List.forall_mem_singleton.mpr rfl⟩
    · exact .unchanged h

/-- Painting keeps the grid's size (R26). -/
theorem paint_size (px : List (List Bool)) (x0 y0 w h H W : Nat) (f : Nat → Nat → Bool)
    (hpx : px.length = H ∧ ∀ row ∈ px, row.length = W) :
    (paint px x0 y0 w h f).length = H ∧ ∀ row ∈ paint px x0 y0 w h f, row.length = W := by
  obtain ⟨hlen, hrows⟩ := hpx
  refine ⟨by simpa [paint] using hlen, fun row hrow => ?_⟩
  obtain ⟨Y, hY, rfl⟩ := List.mem_mapIdx.mp hrow
  split
  · simpa using hrows _ (List.getElem_mem hY)
  · exact hrows _ (List.getElem_mem hY)

theorem painted_ok (c : Config) (d : Display) (x0 y0 w h : Nat) (f : Nat → Nat → Bool) (hd : ScreenOk c d) :
    ScreenOk c { d with px := paint d.px x0 y0 w h f } :=
  { hd with px := paint_size d.px x0 y0 w h _ _ f hd.px }

theorem image_ok (c : Config) (d : Display) (xL xH yL yH : Byte) (payload : List Byte) (h : ScreenOk c d) :
    ScreenOk c (d.image xL xH yL yH payload) :=
  painted_ok c d _ _ _ _ _ h

theorem drawGlyph_ok (c : Config) (d : Display) (b : Byte) (h : ScreenOk c d) : ScreenOk c (d.drawGlyph c b) :=
  painted_ok c d _ _ _ _ _ h

/-- A cell of the text buffer written keeps the buffer's size (R229). -/
theorem textPut_ok (c : Config) (d : Display) (b : Byte) (h : ScreenOk c d) :
    ScreenOk c (d.textPut c b) ∧ SameControl d (d.textPut c b) := by
  obtain ⟨hlen, hrows⟩ := h.text
  unfold Display.textPut
  dsimp only
  split
  · refine ⟨{ h with text := ⟨by simpa using hlen, fun row hrow => ?_⟩ }, rfl⟩
    obtain ⟨i, hi, rfl⟩ := List.mem_iff_getElem.mp hrow
    rw [List.getElem_modify]
    split <;> simp [hrows]
  · exact ⟨h, rfl⟩

theorem SameControl.trans {a b c : Display} (hab : SameControl a b) (hbc : SameControl b c) : SameControl a c := by
  unfold SameControl at *
  rw [hbc, hab]

theorem print_drawn (c : Config) (d : Display) (b : Byte) (hc : SizesOk c) (h : ScreenOk c d) :
    Drawn c d (d.print c b, []) := by
  obtain ⟨htext, hsame⟩ := textPut_ok c _ b (drawGlyph_ok c d b h)
  obtain ⟨hcursor, hsame'⟩ := advance_ok c _ hc htext
  exact ⟨hcursor, SameControl.trans (b := d.drawGlyph c b) rfl (hsame.trans hsame'), List.forall_mem_nil _⟩

theorem setCursor_drawn (c : Config) (d : Display) (xL xH yL yH : Byte) (bytes : List Byte) (h : ScreenOk c d) :
    Drawn c d (d.setCursor c xL xH yL yH bytes) := by
  unfold Display.setCursor
  dsimp only
  split
  · rename_i hin
    obtain ⟨hx, hy⟩ := hin
    exact ⟨{ h with cx := hx, cy := hy }, rfl, List.forall_mem_nil _⟩
  · exact .logged h bytes

theorem setMag_drawn (c : Config) (d : Display) (x y : Byte) (bytes : List Byte) (h : ScreenOk c d) :
    Drawn c d (d.setMag x y bytes) := by
  unfold Display.setMag
  split
  · rename_i hin
    obtain ⟨hx, hx', hy, hy'⟩ := hin
    exact ⟨{ h with magX := ⟨hx, hx'⟩, magY := ⟨hy, hy'⟩ }, rfl, List.forall_mem_nil _⟩
  · exact .logged h bytes

/-- Every command of a table row (R238 to R243), whatever it collected. -/
theorem command_drawn (c : Config) (cmd : DisplayCommand) (key fixed varArgs : List Byte) (d : Display)
    (hc : SizesOk c) (h : ScreenOk c d) : Drawn c d (d.command c cmd key fixed varArgs) := by
  cases cmd with
  | escInit => exact .silent ⟨initialise_ok c d hc h, rfl⟩
  | usCursor => exact setCursor_drawn c d _ _ _ _ _ h
  | usMag => exact setMag_drawn c d _ _ _ h
  | usImage => exact .silent ⟨image_ok c d _ _ _ _ _ h, rfl⟩
  | usScroll | usBlink | usWinSelect | usWinDefine => exact .unchanged h

/-- The display's instructions (R228 to R243). -/
theorem screenOp_drawn (f : Env → Display → Display × List Effect) (hf : ScreenOp f) (env : Env) (d : Display)
    (hc : SizesOk env.cfg) (h : ScreenOk env.cfg d) : Drawn env.cfg d (f env d) := by
  cases hf with
  | unrecognized bytes => exact .logged h bytes
  | instr i f hi =>
    cases i with
    | bs => cases hi; exact backspace_drawn env d hc h
    | ht => cases hi; exact Drawn.silent (advance_ok env.cfg d hc h)
    | lf => cases hi; exact Drawn.silent ⟨lineFeed_ok env.cfg d hc h, rfl⟩
    | hom => cases hi; exact Drawn.silent ⟨home_ok env.cfg d hc h, rfl⟩
    | clr => cases hi; exact Drawn.silent ⟨clear_ok env.cfg d hc h, rfl⟩
    | cr => cases hi; exact Drawn.silent ⟨carriageReturn_ok env.cfg d hc h, rfl⟩
    | print20 c => cases hi; exact print_drawn env.cfg d _ hc h
    | print40 c => cases hi; exact print_drawn env.cfg d _ hc h
    | print80 c => cases hi; exact print_drawn env.cfg d _ hc h
    | escInit => cases hi; exact Drawn.silent ⟨initialise_ok env.cfg d hc h, rfl⟩
    | usCursor xL xH yL yH => cases hi; exact setCursor_drawn env.cfg d _ _ _ _ _ h
    | usMag x y => cases hi; exact setMag_drawn env.cfg d _ _ _ h
    | usImage xL xH yL yH g payload => cases hi; exact Drawn.silent ⟨image_ok env.cfg d _ _ _ _ _ h, rfl⟩
    | usScroll | usBlink | usWinSelect | usWinDefine => cases hi; exact .unchanged h
    | startW | startR | write | read | stop | ack | ackRead | ledctl | eeaddr => cases hi

/-- A control byte does what its instruction does (R73, R223). -/
theorem control_eq_onScreen (env : Env) (d : Display) (b : Byte) (r : Display × List Effect)
    (h : d.control? env b = some r) : ∃ i f, Instr.onScreen? i = some f ∧ r = f env d := by
  unfold Display.control? at h
  (repeat' split at h) <;> cases h
  · exact ⟨.bs, _, rfl, rfl⟩
  · exact ⟨.ht, _, rfl, rfl⟩
  · exact ⟨.lf, _, rfl, rfl⟩
  · exact ⟨.hom, _, rfl, rfl⟩
  · exact ⟨.clr, _, rfl, rfl⟩
  · exact ⟨.cr, _, rfl, rfl⟩

theorem control_drawn (env : Env) (d : Display) (b : Byte) (r : Display × List Effect) (hc : SizesOk env.cfg)
    (h : ScreenOk env.cfg d) (hr : d.control? env b = some r) : Drawn env.cfg d r := by
  obtain ⟨i, f, hi, rfl⟩ := control_eq_onScreen env d b r hr
  exact screenOp_drawn f (.instr i f hi) env d hc h

/-! ## The parser in each of its states -/

theorem parserOk_idle (c : Config) (d : Display) (h : d.pstate = .idle) : parserOk c d = true ↔ parserEmpty d := by
  simp only [parserOk, h, decide_eq_true_eq]

theorem parserOk_prefix (c : Config) (d : Display) (h : d.pstate = .collectingCommandPrefix) :
    parserOk c d = true ↔ d.pfx ≠ [] ∧ tableBegins c.cmdTable d.pfx = true ∧ tableRow? c.cmdTable d.pfx = none ∧
      d.fixed = [] ∧ d.varArgs = [] ∧ d.needFixed = 0 ∧ d.needVar = 0 ∧ d.entry = none := by
  simp only [parserOk, h, Bool.and_eq_true, decide_eq_true_eq, Option.isNone_iff_eq_none, and_assoc]

theorem parserOk_fixed (c : Config) (d : Display) (h : d.pstate = .collectingFixedArgs) :
    parserOk c d = true ↔ ∃ row, tableRow? c.cmdTable d.pfx = some row ∧ d.entry = some row ∧
      d.needFixed = row.fixedLen ∧ d.fixed.length < d.needFixed ∧ d.varArgs = [] ∧ d.needVar = 0 := by
  simp only [parserOk, h, Bool.and_eq_true, decide_eq_true_eq, Option.any_eq_true]
  constructor
  · rintro ⟨⟨hentry, row, hrow, hneed⟩, hrest⟩
    exact ⟨row, hentry ▸ hrow, hrow, hneed, hrest⟩
  · rintro ⟨row, htable, hrow, hneed, hrest⟩
    exact ⟨⟨hrow.trans htable.symm, row, hrow, hneed⟩, hrest⟩

theorem parserOk_var (c : Config) (d : Display) (h : d.pstate = .collectingVariableArgs) :
    parserOk c d = true ↔ ∃ row, tableRow? c.cmdTable d.pfx = some row ∧ d.entry = some row ∧
      d.needFixed = row.fixedLen ∧ d.needVar = dynLength row.dynLen d.fixed ∧ d.fixed.length = d.needFixed ∧
      d.varArgs.length < d.needVar := by
  simp only [parserOk, h, Bool.and_eq_true, decide_eq_true_eq, Option.any_eq_true]
  constructor
  · rintro ⟨⟨hentry, row, hrow, hneed, hvar⟩, hrest⟩
    exact ⟨row, hentry ▸ hrow, hrow, hneed, hvar, hrest⟩
  · rintro ⟨row, htable, hrow, hneed, hvar, hrest⟩
    exact ⟨⟨hrow.trans htable.symm, row, hrow, hneed, hvar⟩, hrest⟩

theorem SameControl.parserOk {c : Config} {d d' : Display} (h : SameControl d d') : parserOk c d' = parserOk c d := by
  rw [h]
  rfl

/-- What the parser answered to a byte: screen and parser in order, the bus phase and the busy line as they were. -/
structure Parsed (c : Config) (d : Display) (r : Display × List Effect) : Prop where
  screen : ScreenOk c r.1
  parser : parserOk c r.1 = true
  phase  : r.1.phase = d.phase
  busy   : r.1.busy = d.busy
  timer  : r.1.busyTimer = d.busyTimer
  quiet  : ∀ e ∈ r.2, e.quiet = true

/-- Bus phase and busy line may be read off another display that agrees on them. -/
theorem Parsed.of_same {c : Config} {d d' : Display} {r : Display × List Effect} (h : Parsed c d' r)
    (hphase : d'.phase = d.phase := by rfl) (hbusy : d'.busy = d.busy := by rfl)
    (htimer : d'.busyTimer = d.busyTimer := by rfl) : Parsed c d r :=
  ⟨h.screen, h.parser, h.phase.trans hphase, h.busy.trans hbusy, h.timer.trans htimer, h.quiet⟩

theorem Drawn.parsed {c : Config} {d : Display} {r : Display × List Effect} (h : Drawn c d r)
    (hp : parserOk c d = true) : Parsed c d r where
  screen := h.screen
  parser := h.control.parserOk.trans hp
  phase := by rw [h.control]
  busy := by rw [h.control]
  timer := by rw [h.control]
  quiet := h.quiet

theorem clearParser_parserOk (c : Config) (d : Display) : parserOk c d.clearParser = true :=
  (parserOk_idle c _ rfl).mpr ⟨rfl, rfl, rfl, rfl, rfl, rfl⟩

theorem ScreenOk.clearParser {c : Config} {d : Display} (h : ScreenOk c d) : ScreenOk c d.clearParser := { h with }

/-- The command runs and the parser goes back to Idle (R227). -/
theorem execute_parsed (c : Config) (d : Display) (hc : SizesOk c) (h : ScreenOk c d) :
    Parsed c d (d.execute c) := by
  unfold Display.execute
  split
  · rename_i row _
    have hdrawn := command_drawn c row.command d.pfx d.fixed d.varArgs d hc h
    generalize d.command c row.command d.pfx d.fixed d.varArgs = r at hdrawn
    refine ⟨hdrawn.screen.clearParser, clearParser_parserOk c r.1, ?_, ?_, ?_, hdrawn.quiet⟩
    · show r.1.phase = d.phase
      rw [hdrawn.control]
    · show r.1.busy = d.busy
      rw [hdrawn.control]
    · show r.1.busyTimer = d.busyTimer
      rw [hdrawn.control]
  · exact ⟨h.clearParser, clearParser_parserOk c d, rfl, rfl, rfl, List.forall_mem_nil _⟩

/-- All fixed arguments are there: the variable ones follow, or the command runs (R225). -/
theorem afterFixed_parsed (c : Config) (d : Display) (row : CommandRow) (hc : SizesOk c) (h : ScreenOk c d)
    (htable : tableRow? c.cmdTable d.pfx = some row) (hentry : d.entry = some row) (hneed : d.needFixed = row.fixedLen)
    (hlen : d.fixed.length = d.needFixed) (hvar : d.varArgs = []) : Parsed c d (d.afterFixed c) := by
  unfold Display.afterFixed
  simp only [hentry]
  split
  · rename_i hpos
    refine ⟨{ h with }, (parserOk_var c _ rfl).mpr ⟨row, htable, rfl, hneed, rfl, hlen, ?_⟩, rfl, rfl, rfl,
      List.forall_mem_nil _⟩
    simpa [hvar] using hpos
  · exact .of_same (execute_parsed c { d with needVar := dynLength row.dynLen d.fixed, entry := some row } hc { h with })

/-- The key is complete: the fixed arguments follow, if the row has any (R224). -/
theorem enterArgs_parsed (c : Config) (d : Display) (row : CommandRow) (hc : SizesOk c) (h : ScreenOk c d)
    (htable : tableRow? c.cmdTable d.pfx = some row) (hvar : d.needVar = 0) : Parsed c d (d.enterArgs c row) := by
  unfold Display.enterArgs
  dsimp only
  split
  · rename_i hpos
    exact ⟨{ h with }, (parserOk_fixed c _ rfl).mpr ⟨row, htable, rfl, rfl, hpos, rfl, hvar⟩, rfl, rfl, rfl,
      List.forall_mem_nil _⟩
  · rename_i hzero
    exact .of_same (afterFixed_parsed c
      { d with entry := some row, fixed := [], varArgs := [], needFixed := row.fixedLen } row hc { h with } htable rfl rfl
      (Nat.eq_zero_of_not_pos hzero).symm rfl)

theorem parseIdle_parsed (env : Env) (d : Display) (b : Byte) (hc : SizesOk env.cfg) (h : ScreenOk env.cfg d)
    (hidle : d.pstate = .idle) (hp : parserOk env.cfg d = true) : Parsed env.cfg d (d.parseIdle env b) := by
  obtain ⟨-, hfixed, hvar, hneedF, hneedV, hentry⟩ := (parserOk_idle _ d hidle).mp hp
  unfold Display.parseIdle
  split
  · rename_i r hr
    exact (control_drawn env d b r hc h hr).parsed hp
  · split
    · exact (print_drawn env.cfg d b hc h).parsed hp
    · split
      · rename_i hbegins
        dsimp only
        split
        · rename_i row hrow
          exact .of_same (enterArgs_parsed env.cfg { d with pfx := [b], pstate := .collectingCommandPrefix } row hc
            { h with } hrow hneedV)
        · rename_i hrow
          exact ⟨{ h with }, (parserOk_prefix _ _ rfl).mpr
            ⟨List.cons_ne_nil _ _, hbegins, hrow, hfixed, hvar, hneedF, hneedV, hentry⟩, rfl, rfl, rfl,
            List.forall_mem_nil _⟩
      · exact (Drawn.logged h [b]).parsed hp

theorem parsePrefix_parsed (c : Config) (d : Display) (b : Byte) (hc : SizesOk c) (h : ScreenOk c d)
    (hstate : d.pstate = .collectingCommandPrefix) (hp : parserOk c d = true) : Parsed c d (d.parsePrefix c b) := by
  obtain ⟨-, -, -, hfixed, hvar, hneedF, hneedV, hentry⟩ := (parserOk_prefix c d hstate).mp hp
  unfold Display.parsePrefix
  dsimp only
  split
  · rename_i row hrow
    exact .of_same (enterArgs_parsed c { d with pfx := d.pfx ++ [b] } row hc { h with } hrow hneedV)
  · rename_i hrow
    split
    · rename_i hbegins
      exact ⟨{ h with }, (parserOk_prefix c { d with pfx := d.pfx ++ [b] } hstate).mpr
        ⟨by simp, hbegins, hrow, hfixed, hvar, hneedF, hneedV, hentry⟩, rfl, rfl, rfl, List.forall_mem_nil _⟩
    · exact ⟨{ h with }, (parserOk_idle c _ rfl).mpr ⟨rfl, hfixed, hvar, hneedF, hneedV, hentry⟩, rfl, rfl, rfl,
        List.forall_mem_singleton.mpr rfl⟩

theorem parseFixed_parsed (c : Config) (d : Display) (b : Byte) (hc : SizesOk c) (h : ScreenOk c d)
    (hstate : d.pstate = .collectingFixedArgs) (hp : parserOk c d = true) : Parsed c d (d.parseFixed c b) := by
  obtain ⟨row, htable, hentry, hneed, hlen, hvar, hneedV⟩ := (parserOk_fixed c d hstate).mp hp
  unfold Display.parseFixed
  dsimp only
  split
  · rename_i hfull
    exact .of_same (afterFixed_parsed c { d with fixed := d.fixed ++ [b] } row hc { h with } htable hentry hneed hfull
      hvar)
  · rename_i hmore
    have hless : (d.fixed ++ [b]).length < d.needFixed := by
      rw [List.length_append, List.length_singleton] at hmore ⊢
      omega
    exact ⟨{ h with }, (parserOk_fixed c { d with fixed := d.fixed ++ [b] } hstate).mpr
      ⟨row, htable, hentry, hneed, hless, hvar, hneedV⟩, rfl, rfl, rfl, List.forall_mem_nil _⟩

theorem parseVar_parsed (c : Config) (d : Display) (b : Byte) (hc : SizesOk c) (h : ScreenOk c d)
    (hstate : d.pstate = .collectingVariableArgs) (hp : parserOk c d = true) : Parsed c d (d.parseVar c b) := by
  obtain ⟨row, htable, hentry, hneed, hdyn, hlen, hvar⟩ := (parserOk_var c d hstate).mp hp
  unfold Display.parseVar
  dsimp only
  split
  · exact .of_same (execute_parsed c { d with varArgs := d.varArgs ++ [b] } hc { h with })
  · rename_i hmore
    have hless : (d.varArgs ++ [b]).length < d.needVar := by
      rw [List.length_append, List.length_singleton] at hmore ⊢
      omega
    exact ⟨{ h with }, (parserOk_var c { d with varArgs := d.varArgs ++ [b] } hstate).mpr
      ⟨row, htable, hentry, hneed, hdyn, hlen, hless⟩, rfl, rfl, rfl, List.forall_mem_nil _⟩

theorem parseByte_parsed (env : Env) (d : Display) (b : Byte) (hc : SizesOk env.cfg) (h : ScreenOk env.cfg d)
    (hp : parserOk env.cfg d = true) : Parsed env.cfg d (d.parseByte env b) := by
  unfold Display.parseByte
  split
  · rename_i hstate
    exact parseIdle_parsed env d b hc h hstate hp
  · rename_i hstate
    exact parsePrefix_parsed env.cfg d b hc h hstate hp
  · rename_i hstate
    exact parseFixed_parsed env.cfg d b hc h hstate hp
  · rename_i hstate
    exact parseVar_parsed env.cfg d b hc h hstate hp

/-! ## The bus side and the busy line -/

theorem handles_display (d : Display) :
    (DevState.display d).handles = d.busyTimer.toList.map (fun t => (t, .busyEnd)) := rfl

/-- An operation on the screen keeps the display consistent and its busy timer. -/
theorem screenOp_keeps (f : Env → Display → Display × List Effect) (hf : ScreenOp f) (env : Env) (d : Display)
    (hc : SizesOk env.cfg) (h : displayOk env.cfg d) (hbusy : (DevState.display d).busyAgrees) :
    Keeps env (DevState.display d).handles (.display (f env d).1) (f env d).2 := by
  obtain ⟨hscreen, hparser, hphase⟩ := (displayOk_iff _ d).mp h
  have hdrawn := screenOp_drawn f hf env d hc hscreen
  generalize f env d = r at hdrawn
  have hparsed := hdrawn.parsed hparser
  refine .of_quiet (decide_eq_true ((displayOk_iff _ _).mpr ⟨hparsed.screen, hparsed.parser, ?_⟩)) ?_ hparsed.quiet ?_
  · rw [hdrawn.control]
    exact hphase
  · show r.1.busy = r.1.busyTimer.isSome
    rw [hparsed.busy, hparsed.timer]
    exact hbusy
  · rw [handles_display, handles_display, hparsed.timer]
    exact List.Subset.refl _

/-- The busy pulse (R244): the old end, if one is pending, is cancelled and the new one held. -/
theorem busyPulse_grants (env : Env) (d d' : Display) (es rest : List Effect) (hq : ∀ e ∈ rest, e.quiet = true)
    (hpulse : d.busyPulse env = (d', es)) :
    ∃ hs', Grants env.id (DevState.display d).handles (es ++ rest) hs' ∧ (DevState.display d').handles ⊆ hs' := by
  unfold Display.busyPulse at hpulse
  split at hpulse
  · cases hpulse
    exact ⟨_, .of_quiet _ _ _ hq, List.Subset.refl _⟩
  · rename_i us _
    cases hpulse
    refine ⟨[(env.id, .busyEnd)], ?_, List.Subset.refl _⟩
    have hend : Grants env.id [] ((if d.busy then [] else [Effect.pin .busy true]) ++
        (.schedule us .busyEnd :: rest)) [(env.id, .busyEnd)] := by
      refine Grants.quiet_append _ _ _ _ _ ?_ (.schedule _ us _ _ _ _ (by simp) (.of_quiet _ _ _ hq))
      split <;> simp [Effect.quiet]
    cases htimer : d.busyTimer with
    | none => simpa [handles_display, htimer] using hend
    | some t =>
      have hcancel : Grants env.id [(t, .busyEnd)] (.cancel t :: ((if d.busy then [] else [Effect.pin .busy true]) ++
          (.schedule us .busyEnd :: rest))) [(env.id, .busyEnd)] :=
        .cancel _ t _ _ [] _ _ List.mem_cons_self (List.nil_subset _) (List.not_mem_nil) hend
      simpa [handles_display, htimer] using hcancel

/-- The pulse writes the busy line and its timer only, and both or none. -/
theorem busyPulse_ok (env : Env) (d d' : Display) (es : List Effect) (hpulse : d.busyPulse env = (d', es))
    (hbusy : (DevState.display d).busyAgrees) :
    (DevState.display d').busyAgrees ∧ d' = { d with busy := d'.busy, busyTimer := d'.busyTimer } := by
  unfold Display.busyPulse at hpulse
  split at hpulse <;> cases hpulse
  · exact ⟨hbusy, rfl⟩
  · exact ⟨rfl, rfl⟩

/-- A stream byte (R221): parsed, the pulse, the acknowledgement. -/
theorem streamByte_keeps (env : Env) (ab b : Byte) (d d' : Display) (es : List Effect) (hc : SizesOk env.cfg)
    (h : displayOk env.cfg d) (hbusy : (DevState.display d).busyAgrees) (hphase : d.phase = .receiving)
    (hd : d.streamByte env ab b = .done d' es) : Keeps env (DevState.display d).handles (.display d') es := by
  obtain ⟨hscreen, hparser, -⟩ := (displayOk_iff _ d).mp h
  have hparsed := parseByte_parsed env d b hc hscreen hparser
  unfold Display.streamByte at hd
  dsimp only at hd
  generalize d.parseByte env b = parsed at hparsed hd
  obtain ⟨d1, es1⟩ := parsed
  obtain ⟨hscreen1, hparser1, hphase1, hbusy1, htimer1, hquiet1⟩ := hparsed
  generalize hpulse : d1.busyPulse env = pulsed at hd
  obtain ⟨d2, es2⟩ := pulsed
  cases hd
  have hagrees : (DevState.display d1).busyAgrees := by
    show d1.busy = d1.busyTimer.isSome
    rw [hbusy1, htimer1]
    exact hbusy
  obtain ⟨hbusy2, hd2⟩ := busyPulse_ok env d1 d2 es2 hpulse hagrees
  obtain ⟨hs', hgrants, hsub⟩ := busyPulse_grants env d1 d2 es2 [ackOnly ab] (List.forall_mem_singleton.mpr rfl) hpulse
  refine ⟨decide_eq_true ((displayOk_iff _ _).mpr ?_), hbusy2, hs', ?_, hsub⟩
  · rw [hd2]
    refine ⟨{ hscreen1 with }, hparser1, fun hidle => ?_⟩
    rw [show d1.phase = .idle from hidle, hphase] at hphase1
    cases hphase1
  · rw [handles_display, ← htimer1, List.append_assoc]
    exact Grants.quiet_append _ _ _ _ _ hquiet1 hgrants

theorem display_reset_ok (c : Config) (d : Display) (h : displayOk c d) : displayOk c d.reset := by
  obtain ⟨hscreen, -, -⟩ := (displayOk_iff c d).mp h
  exact (displayOk_iff c _).mpr ⟨{ hscreen with }, clearParser_parserOk c d, fun _ => rfl⟩

theorem handle_display_keeps (env : Env) (m : BusMessage) (d d' : Display) (es : List Effect) (hc : SizesOk env.cfg)
    (h : displayOk env.cfg d) (hbusy : (DevState.display d).busyAgrees) (hd : d.handle env m = .done d' es) :
    Keeps env (DevState.display d).handles (.display d') es := by
  unfold Display.handle at hd
  split at hd
  case h_1 =>
    cases hd
    obtain ⟨hscreen, hparser, -⟩ := (displayOk_iff _ d).mp h
    exact .of_quiet (decide_eq_true ((displayOk_iff _ _).mpr ⟨{ hscreen with }, hparser, by simp⟩)) hbusy
      (List.forall_mem_singleton.mpr rfl) (List.Subset.refl _)
  case h_2 =>
    split at hd
    · rename_i hphase
      exact streamByte_keeps env _ _ d d' es hc h hbusy hphase hd
    · cases hd
  case h_3 =>
    cases hd
    exact .of_quiet (decide_eq_true (display_reset_ok _ d h)) hbusy (List.forall_mem_nil _) (List.Subset.refl _)
  all_goals cases hd

/-- The end of the pulse (R245) holds nothing. -/
theorem busyEnd_keeps (env : Env) (hs : List (Nat × Payload)) (d : Display) (h : displayOk env.cfg d) :
    Keeps env hs (.display d.busyEnd.1) d.busyEnd.2 := by
  obtain ⟨hscreen, hparser, hphase⟩ := (displayOk_iff _ d).mp h
  exact .of_quiet (decide_eq_true ((displayOk_iff _ _).mpr ⟨{ hscreen with }, hparser, hphase⟩)) rfl
    (List.forall_mem_singleton.mpr rfl) (List.nil_subset _)

end Sys2Proof.Machine
end

section
/-! PROOFS. Every step keeps the invariant of the whole block (R34, R119, R168, R170, R192, R246, R271). -/

namespace Sys2Proof.Machine

/-! ## Messages -/

theorem deviceOk_reset (c : Config) (st : DevState) (h : deviceOk c st = true) : deviceOk c st.reset = true := by
  cases st with
  | rtc d =>
    obtain ⟨hcore, hpin⟩ : rtcOk c d := of_decide_eq_true h
    exact decide_eq_true ⟨coreOk_reset _ _ hcore, hpin⟩
  | eeprom d => exact decide_eq_true (eeprom_reset_ok c d (of_decide_eq_true h))
  | keypad d =>
    have hok : keypadOk d := of_decide_eq_true h
    obtain ⟨hcore, -⟩ := id hok
    exact decide_eq_true (keypadOk_withCore d _ hok (coreOk_reset _ _ hcore) rfl)
  | led d =>
    have hok : ledOk d := of_decide_eq_true h
    exact decide_eq_true (coreOk_reset ledLast d.core hok)
  | display d => exact decide_eq_true (display_reset_ok c d (of_decide_eq_true h))

theorem Keeps.reset {env : Env} {hs : List (Nat × Payload)} {st : DevState} {es : List Effect}
    (h : Keeps env hs st es) : Keeps env hs st.reset es := by
  obtain ⟨hok, hbusy, hs', hgrants, hsub⟩ := h
  exact ⟨deviceOk_reset _ st hok, reset_busyAgrees st hbusy, hs', hgrants, (reset_handles st).symm ▸ hsub⟩

theorem handle_keeps (env : Env) (m : BusMessage) (st st' : DevState) (es : List Effect) (hc : configOk env.cfg)
    (hok : deviceOk env.cfg st = true) (hbusy : st.busyAgrees) (h : st.handle env m = .done st' es) :
    Keeps env st.handles st' es := by
  cases st with
  | rtc d =>
    obtain ⟨d', hd, rfl⟩ := (Reaction.map_eq_done _ _ _ _).mp h
    exact handle_rtc_keeps env m d d' es (of_decide_eq_true hok) hd
  | eeprom d =>
    obtain ⟨d', hd, rfl⟩ := (Reaction.map_eq_done _ _ _ _).mp h
    obtain ⟨-, -, -, -, -, -, hsize, -⟩ := hc
    exact handle_eeprom_keeps env m d d' es hsize (of_decide_eq_true hok) hd
  | keypad d =>
    obtain ⟨d', hd, rfl⟩ := (Reaction.map_eq_done _ _ _ _).mp h
    exact handle_keypad_keeps env m d d' es (of_decide_eq_true hok) hd
  | led d =>
    obtain ⟨d', hd, rfl⟩ := (Reaction.map_eq_done _ _ _ _).mp h
    exact handle_led_keeps env m d d' es (of_decide_eq_true hok) hd
  | display d =>
    obtain ⟨d', hd, rfl⟩ := (Reaction.map_eq_done _ _ _ _).mp h
    exact handle_display_keeps env m d d' es (sizesOk_of_configOk _ hc) (of_decide_eq_true hok) hbusy hd

theorem respond_keeps (env : Env) (m : BusMessage) (dev : Device) (st : DevState) (es : List Effect)
    (hc : configOk env.cfg) (hok : deviceOk env.cfg dev.st = true) (hbusy : dev.st.busyAgrees)
    (h : dev.respond env m = .done st es) : Keeps env dev.st.handles st es := by
  have hidle : Keeps env dev.st.handles dev.st [] :=
    .of_quiet hok hbusy (List.forall_mem_nil _) (List.Subset.refl _)
  rcases respond_eq_done env m dev st es h with ⟨-, st', hhandle, rfl | rfl⟩ | ⟨rfl, rfl | rfl⟩
  · exact handle_keeps env m dev.st st es hc hok hbusy hhandle
  · exact (handle_keeps env m dev.st st' es hc hok hbusy hhandle).reset
  · exact hidle
  · exact hidle.reset

theorem State.Inv.cfg {s : State} (h : s.Inv) : configOk s.cfg := ((inv_iff s).mp h).1

theorem State.Inv.pending {s : State} (h : s.Inv) : pendingOk s := ((inv_iff s).mp h).2.1

/-- A live device is consistent, and so is its busy line. -/
theorem State.Inv.live {s : State} {k : Nat} {dev : Device} (h : s.Inv) (hlive : liveAt s k dev) :
    deviceOk s.cfg dev.st = true ∧ dev.st.busyAgrees := by
  obtain ⟨-, -, -, hdevices⟩ := (inv_iff s).mp h
  obtain ⟨hdev, hl⟩ := (liveDevice?_eq_some s k dev).mp hlive
  obtain ⟨hok, htimers⟩ := hdevices k dev hdev
  exact ⟨hok, ((timersOk_iff _ _ _).mp (htimers hl)).1⟩

theorem txFinish_length (o : Option Transaction) (finished : List Transaction) (h : finished.length ≤ transcriptCap) :
    (txFinish o finished).length ≤ transcriptCap := by
  unfold txFinish
  split
  · exact h
  · exact List.length_take_le _ _

theorem listenOut_inv (s : State) (m : BusMessage) (h : s.Inv) : (s.listenOut m).Inv := by
  obtain ⟨hcfg, hpending, hfinished, hdevices⟩ := id h
  unfold State.listenOut
  split
  · exact h
  · split
    · exact ⟨hcfg, hpending, txFinish_length _ _ hfinished, hdevices⟩
    · split <;> exact h

theorem adapter_inv (s : State) (m : BusMessage) (k : Nat) (h : s.Inv) : (s.adapter m k).Inv := by
  rcases adapter_cases s m k with heq | ⟨dev, hlive, heq⟩ <;> rw [heq]
  · exact h
  · obtain ⟨hok, hbusy⟩ := h.live hlive
    exact react_inv h hlive _ fun st es hr => respond_keeps s.env m dev st es h.cfg hok hbusy hr

theorem subscriber_inv (m : BusMessage) (s : State) (k : Nat) (h : s.Inv) : (s.subscriber m k).Inv := by
  rcases subscriber_cases s m k with heq | heq | heq <;> rw [heq]
  · exact h
  · exact listenOut_inv s m h
  · exact adapter_inv s m k h

theorem foldl_subscriber_inv (m : BusMessage) (ks : List Nat) (s : State) (h : s.Inv) :
    (ks.foldl (State.subscriber m) s).Inv := by
  induction ks generalizing s with
  | nil => exact h
  | cons k ks ih => exact ih _ (subscriber_inv m s k h)

theorem deliver_inv (s : State) (m : BusMessage) (h : s.Inv) : (s.deliver m).Inv :=
  foldl_subscriber_inv m _ { s with ab := m.ab } h

/-! ## Operations on one device -/

theorem onDisplay_inv (s : State) (f : Env → Display → Display × List Effect) (hf : ScreenOp f) (h : s.Inv) :
    (s.onDisplay f).Inv := by
  rcases onDisplay_cases s f with heq | ⟨dev, d, hlive, hst, heq⟩ <;> rw [heq]
  · exact h
  · obtain ⟨hok, hbusy⟩ := h.live hlive
    rw [hst] at hok hbusy
    refine react_done_inv (h.holding hlive) dev _ _ hlive ?_
    rw [hst]
    exact screenOp_keeps f hf s.env d (sizesOk_of_configOk _ h.cfg) (of_decide_eq_true hok) hbusy

theorem onKeypad_inv (s : State) (e : HostEvent) (k : Nat) (f : Env → Keypad → Keypad × List Effect)
    (hcall : KeyCall e k f) (h : s.Inv) : (s.onKeypad k f).Inv := by
  rcases onKeypad_cases s k f with heq | ⟨dev, d, hlive, hst, heq⟩ <;> rw [heq]
  · exact h
  · obtain ⟨hok, -⟩ := h.live hlive
    obtain ⟨-, -, -, -, -, -, -, -, -, -, hcode, -⟩ := h.cfg
    rw [hst] at hok
    refine react_done_inv (h.holding hlive) dev _ _ hlive ?_
    rw [hst]
    exact keyCall_keeps e k f hcall s.env d hcode (of_decide_eq_true hok)

theorem ledSelectByte_inv (s : State) (b : Byte) (h : s.Inv) : (s.ledSelectByte b).Inv := by
  rcases ledSelectByte_cases s b with heq | ⟨dev, d, hlive, hst, heq⟩ <;> rw [heq]
  · exact h
  · obtain ⟨hok, -⟩ := h.live hlive
    rw [hst] at hok
    refine react_inv h hlive _ fun st es hr => ?_
    obtain ⟨d', hd, rfl⟩ := (Reaction.map_eq_done _ _ _ _).mp hr
    rw [hst]
    exact onAddress_led_keeps s.env s.ab b d d' es (of_decide_eq_true hok) hd

theorem eeAddressBytes_inv (s : State) (hi lo : Byte) (h : s.Inv) : (s.eeAddressBytes hi lo).Inv := by
  rcases eeAddressBytes_cases s hi lo with heq | ⟨dev, d, hlive, hst, heq⟩ <;> rw [heq]
  · exact h
  · obtain ⟨hok, -⟩ := h.live hlive
    rw [hst] at hok
    refine react_inv h hlive _ fun st es hr => ?_
    obtain ⟨d', hd, rfl⟩ := (Reaction.map_eq_done _ _ _ _).mp hr
    rw [hst]
    exact address_eeprom_keeps s.env s.ab hi lo d d' es (of_decide_eq_true hok) hd

/-! ## The host timer (R272, R274) -/

/-- The handles a device may still hold when action `a` has been taken out or put back: all but the one on `a`; a
recurring tick is put back. -/
def handlesAfter (a : PendingAction) (hs : List (Nat × Payload)) : List (Nat × Payload) :=
  hs.filter (fun x => decide (x.2 = .rtcTick ∨ x ≠ (a.id, a.payload)))

theorem mem_handlesAfter (a : PendingAction) (hs : List (Nat × Payload)) (x : Nat × Payload) :
    x ∈ handlesAfter a hs ↔ x ∈ hs ∧ (x.2 = .rtcTick ∨ x ≠ (a.id, a.payload)) := by
  simp [handlesAfter]

/-- The firing of `a` leaves the actions of other devices, the other actions of its owner, and a recurring tick. -/
theorem Named.takeAction {s : State} {a : PendingAction} {j : Nat} {x : Nat × Payload} (hp : pendingOk s)
    (ha : a ∈ s.pending) (hn : Named s.pending j x)
    (hx : j ≠ a.owner ∨ x.2 = .rtcTick ∨ x ≠ (a.id, a.payload)) : Named (afterFiring a s.pending) j x := by
  obtain ⟨b, hb, hid, howner, hpayload, htick⟩ := hn
  unfold afterFiring
  split
  · rename_i hnone
    refine ⟨b, List.mem_filter.mpr ⟨hb, ?_⟩, hid, howner, hpayload, htick⟩
    have hne : b.id ≠ a.id := by
      intro heq
      obtain rfl := action_eq_of_id hp hb ha heq
      rcases hx with hother | hrecurs | hne
      · exact hother howner.symm
      · simpa [hnone] using htick hrecurs
      · exact hne (Prod.ext hid.symm hpayload.symm)
    simpa using hne
  · refine ⟨_, List.mem_map_of_mem hb, ?_⟩
    split <;> exact ⟨hid, howner, hpayload, htick⟩

theorem takeAction_pendingOk (s : State) (a : PendingAction) (h : pendingOk s) : pendingOk (s.takeAction a) := by
  obtain ⟨hnodup, hfresh, howner, hperiodic⟩ := id h
  cases hrecurs : a.periodic with
  | none =>
    have hpending : (s.takeAction a).pending = s.pending.filter (fun b => b.id != a.id) := by
      simp [afterFiring, hrecurs]
    refine pendingOk_of_sublist s _ h (hpending ▸ List.filter_sublist) rfl fun b hb => howner b ?_
    rw [hpending] at hb
    exact List.mem_of_mem_filter hb
  | some p =>
    have hpending : (s.takeAction a).pending =
        s.pending.map (fun b => if b.id = a.id then { b with fireAt := b.fireAt + p } else b) := by
      simp [afterFiring, hrecurs]
    have hids : (s.takeAction a).pending.map PendingAction.id = s.pending.map PendingAction.id := by
      rw [hpending, List.map_map]
      refine List.map_congr_left fun b _ => ?_
      dsimp only [Function.comp]
      split <;> rfl
    refine ⟨hids ▸ hnodup, ?_, ?_, ?_⟩ <;> rw [hpending, List.forall_mem_map] <;> intro b hb
    · split <;> exact hfresh b hb
    · split <;> exact howner b hb
    · split <;> exact hperiodic b hb

theorem takeAction_holding (s : State) (a : PendingAction) (dev : Device) (h : s.Inv) (ha : a ∈ s.pending)
    (hlive : liveAt s a.owner dev) : (s.takeAction a).InvHolding a.owner (handlesAfter a dev.st.handles) := by
  obtain ⟨hcfg, hpending, hfinished, hdevice, htimers, hheld⟩ := h.holding hlive
  refine ⟨hcfg, takeAction_pendingOk s a hpending, hfinished, hdevice, fun j new hnew hl hj => ?_, fun x hx => ?_⟩
  · obtain ⟨hbusy, hnamed⟩ := (timersOk_iff _ _ _).mp (htimers j new hnew hl hj)
    exact (timersOk_iff _ _ _).mpr ⟨hbusy, fun x hx => (hnamed x hx).takeAction hpending ha (.inl hj)⟩
  · obtain ⟨hmem, hkept⟩ := (mem_handlesAfter a _ x).mp hx
    exact (hheld x hmem).takeAction hpending ha (.inr hkept)

/-- A device has a rule for every action it holds. -/
theorem due_of_handle (env : Env) (st : DevState) (x : Nat × Payload) (h : x ∈ st.handles) :
    ∃ st' es, Due env st x.2 st' es := by
  cases st with
  | rtc d =>
    obtain rfl := List.mem_singleton.mp h
    exact ⟨_, _, .tick d⟩
  | keypad d =>
    obtain ⟨e, -, rfl⟩ := List.mem_map.mp h
    exact ⟨_, _, .release d e.1⟩
  | display d =>
    obtain ⟨t, -, rfl⟩ := List.mem_map.mp h
    exact ⟨_, _, .pulseEnd d⟩
  | eeprom d | led d => cases h

/-- The device an action reaches lets go of it, unless it recurs. -/
theorem due_keeps (env : Env) (a : PendingAction) (st st' : DevState) (es : List Effect)
    (hok : deviceOk env.cfg st = true) (h : Due env st a.payload st' es) :
    Keeps env (handlesAfter a st.handles) st' es := by
  generalize hp : a.payload = p at h
  cases h with
  | tick d =>
    refine rtcTick_keeps env _ d (of_decide_eq_true hok) fun x hx => (mem_handlesAfter a _ x).mpr ⟨hx, .inl ?_⟩
    rw [List.mem_singleton.mp hx]
  | release d code =>
    obtain ⟨hsub, hgone⟩ := handles_dropRelease d code
    refine releaseFire_keeps env _ d code (of_decide_eq_true hok) fun x hx =>
      (mem_handlesAfter a _ x).mpr ⟨hsub hx, .inr ?_⟩
    rintro rfl
    exact hgone a.id (hp ▸ hx)
  | pulseEnd d => exact busyEnd_keeps env _ d (of_decide_eq_true hok)

theorem fire_inv (s : State) (id : Nat) (h : s.Inv) : (s.fire id).Inv := by
  rcases fire_cases s id with heq | ⟨a, ha, -, -, heq⟩ <;> rw [heq]
  · exact h
  · obtain ⟨-, -, howner, -⟩ := h.pending
    obtain ⟨dev, hlive⟩ := Option.isSome_iff_exists.mp (howner a ha)
    have hholding := takeAction_holding s a dev h ha hlive
    obtain ⟨hok, hbusy⟩ := h.live hlive
    rcases callback_cases (s.takeAction a) a with ⟨heq, hnone⟩ | ⟨dev', st, es, hlive', hdue, heq⟩ <;> rw [heq]
    · refine hholding.inv fun new hnew _ => ?_
      obtain rfl : dev = new := Option.some.inj (((liveDevice?_eq_some s _ dev).mp hlive).1.symm.trans hnew)
      refine ⟨hbusy, fun x hx => (mem_handlesAfter a _ x).mpr ⟨hx, .inr ?_⟩⟩
      rintro rfl
      obtain ⟨st, es, hdue⟩ := due_of_handle (s.takeAction a).env dev.st _ hx
      exact hnone dev st es hlive hdue
    · obtain rfl : dev = dev' := Option.some.inj (hlive.symm.trans hlive')
      exact react_done_inv hholding dev st es hlive' (due_keeps _ a dev.st st es hok hdue)

/-! ## Destruction (R312) -/

theorem deviceOk_released (c : Config) (st : DevState) (h : deviceOk c st = true) : deviceOk c st.released = true := by
  cases st with
  | rtc d | eeprom d | led d => exact h
  | keypad d =>
    have hnone : ∀ e ∈ ([] : List (Nat × Nat)), 1 ≤ e.1 ∧ e.1 ≤ 127 := List.forall_mem_nil _
    exact decide_eq_true (keypadOk_withReleases d [] (of_decide_eq_true h) List.Pairwise.nil hnone)
  | display d =>
    obtain ⟨hscreen, hparser, hphase⟩ := (displayOk_iff c d).mp (of_decide_eq_true h)
    exact decide_eq_true ((displayOk_iff c _).mpr ⟨{ hscreen with }, hparser, hphase⟩)

theorem destroy_inv (s : State) (k : Nat) (h : s.Inv) : (s.destroy k).Inv := by
  unfold State.destroy
  split
  · rename_i dev hlive
    obtain ⟨hcfg, hpending, hfinished, hdevices⟩ := (inv_iff s).mp h
    obtain ⟨hdev, -⟩ := (liveDevice?_eq_some s k dev).mp hlive
    have hlt := (List.getElem?_eq_some_iff.mp hdev).1
    have hlive_other (j : Nat) (hjk : j ≠ k) (d : Device) :
        (s.setDevice k d).liveDevice? j = s.liveDevice? j := by
      unfold State.liveDevice?
      rw [setDevice_devices, List.getElem?_set_ne (Ne.symm hjk)]
    refine (inv_iff _).mpr ⟨hcfg, ?_, hfinished, fun j new hnew => ?_⟩
    · obtain ⟨-, -, howner, -⟩ := id hpending
      refine pendingOk_of_sublist s _ hpending List.filter_sublist rfl fun a ha => ?_
      obtain ⟨hmem, hne⟩ := List.mem_filter.mp ha
      exact (hlive_other a.owner (by simpa using hne) _).symm ▸ howner a hmem
    · by_cases hkj : k = j
      · subst hkj
        obtain rfl : { dev with live := false, st := dev.st.released } = new := by simpa [hlt] using hnew
        exact ⟨deviceOk_released _ _ (hdevices k dev hdev).1, fun hl => absurd hl (by simp)⟩
      · have hold : s.devices[j]? = some new := by simpa [hkj] using hnew
        obtain ⟨hok, htimers⟩ := hdevices j new hold
        refine ⟨hok, fun hl => ?_⟩
        obtain ⟨hbusy, hnamed⟩ := (timersOk_iff _ _ _).mp (htimers hl)
        refine (timersOk_iff _ _ _).mpr ⟨hbusy, fun x hx => (hnamed x hx).filter _ fun a _ howner => ?_⟩
        simpa [howner] using Ne.symm hkj
  · exact h

/-! ## The step -/

theorem ran_inv (s t : State) (enc : Encoded) (h : s.Inv) (hran : Ran s enc t) : t.Inv := by
  cases hran with
  | delivered w => exact deliver_inv s _ h
  | replied w r => exact h
  | onDisplay bytes f hf => exact onDisplay_inv s f hf h
  | ledSelect b b' => exact ledSelectByte_inv s b' h
  | eeAddress hi lo => exact eeAddressBytes_inv s hi lo h
  | ignored => exact h

theorem moved_inv (s t : State) (e : HostEvent) (h : s.Inv) (hmoved : Moved s e t) : t.Inv := by
  cases hmoved with
  | operation order focus enc t hran => exact ran_inv { s with order := order, focus := focus } t enc h hran
  | advance cycles => exact h
  | fire id => exact fire_inv s id h
  | keyCall e k f hcall => exact onKeypad_inv s e k f hcall h
  | answered e l => exact h
  | raised e k c info => exact h
  | registered e callback => exact h
  | attached spec => exact attach_keeps_inv s spec h
  | destroyed k => exact destroy_inv s k h

/-- Settles O7, by the move the step makes: each is a reaction of one device, or touches no device at all. -/
theorem invariantKeptByEveryStep : Obligations.InvariantKeptByEveryStep := by
  intro s t h hstep
  rcases step_cases s t hstep with rfl | ⟨e, rest, -, hmoved⟩
  · exact h
  · exact moved_inv { s with inbox := rest } t e h hmoved

end Sys2Proof.Machine
end

section
/-! PROOFS. What one step can do to one device, and that only an accepted data WRITE changes a byte of an EEPROM (R54,
R165, R170). -/

namespace Sys2Proof.Machine

/-! ## One device through one step -/

/-- A subscriber's device reads the block's own configuration and draws. -/
theorem subscriber_device_env (s : State) (m : BusMessage) (k : Nat) (dev new : Device)
    (hold : s.devices[k]? = some dev) (hnew : (s.subscriber m k).devices[k]? = some new) :
    new = dev ∨ dev.live = true ∧ ∃ st es, dev.respond s.env m = .done st es ∧ new = { dev with st := st } := by
  have same (t : State) (ht : t.devices = s.devices) (h : t.devices[k]? = some new) : new = dev :=
    Option.some.inj (h.symm.trans (ht ▸ hold))
  rcases subscriber_cases s m k with h | h | h <;> rw [h] at hnew
  · exact .inl (same s rfl hnew)
  · exact .inl (same _ (listenOut_devices s m) hnew)
  · rcases adapter_cases s m k with h | ⟨dev', hlive, h⟩ <;> rw [h] at hnew
    · exact .inl (same s rfl hnew)
    · rcases react_device s k k dev' dev new _ hlive hold hnew with h | ⟨-, rfl, st, es, hr, h⟩
      · exact .inl h
      · exact .inr ⟨((liveDevice?_eq_some s k dev).mp hlive).2, st, es, hr, h⟩

theorem foldl_subscriber_cfg (m : BusMessage) (ks : List Nat) (s : State) :
    (ks.foldl (State.subscriber m) s).cfg = s.cfg := by
  induction ks generalizing s with
  | nil => rfl
  | cons k ks ih => rw [List.foldl_cons, ih, subscriber_cfg]

/-- What a delivery makes of the device at `k` is what its own subscriber makes of it, at a state with the same
configuration and the same device. -/
theorem deliver_at (s : State) (m : BusMessage) (k : Nat) (hk : k < s.devices.length) :
    ∃ t : State, t.cfg = s.cfg ∧ t.devices[k]? = s.devices[k]? ∧
      (s.deliver m).devices[k]? = (t.subscriber m k).devices[k]? := by
  have hmem : k ∈ deliveryOrder s.devices.length s.order := (mem_deliveryOrder _ _ k).mpr hk.le
  obtain ⟨before, after, horder⟩ := List.append_of_mem hmem
  have hnodup := deliveryOrder_nodup s.devices.length s.order
  rw [horder, List.nodup_append] at hnodup
  obtain ⟨-, hnodup_after, hapart⟩ := hnodup
  have hbefore : k ∉ before := fun h => hapart k h k List.mem_cons_self rfl
  have hafter : k ∉ after := (List.nodup_cons.mp hnodup_after).1
  refine ⟨before.foldl (State.subscriber m) { s with ab := m.ab }, foldl_subscriber_cfg m before _,
    foldl_subscriber_other m k before _ hbefore, ?_⟩
  rw [State.deliver, horder, List.foldl_append, List.foldl_cons, foldl_subscriber_other m k after _ hafter]

theorem deliver_device_env (s : State) (m : BusMessage) (k : Nat) (dev new : Device) (hold : s.devices[k]? = some dev)
    (hnew : (s.deliver m).devices[k]? = some new) :
    new = dev ∨ dev.live = true ∧ ∃ env st es, env.cfg = s.cfg ∧ dev.respond env m = .done st es ∧
      new = { dev with st := st } := by
  obtain ⟨t, hcfg, hdev, hdelivered⟩ := deliver_at s m k (List.getElem?_eq_some_iff.mp hold).1
  rcases subscriber_device_env t m k dev new (hdev.trans hold) (hdelivered ▸ hnew) with h | ⟨hlive, st, es, hr, h⟩
  · exact .inl h
  · exact .inr ⟨hlive, t.env, st, es, hcfg, hr, h⟩

/-- What move `e` can make of the device `dev` at position `k`. -/
inductive DeviceMoved (s : State) (k : Nat) (dev : Device) : HostEvent → Device → Prop
  | kept (e : HostEvent) : DeviceMoved s k dev e dev
  | heard (order : List Nat) (focus : Nat) (w : BusWord) (env : Env) (st : DevState) (es : List Effect)
      (hlive : dev.live = true) (hcfg : env.cfg = s.cfg) (hr : dev.respond env (decodeMessage w) = .done st es) :
      DeviceMoved s k dev (.operation order focus (.busOut w)) { dev with st := st }
  | drawn (order : List Nat) (focus : Nat) (bytes : List Byte) (f : Env → Display → Display × List Effect) (env : Env)
      (d : Display) (hf : ScreenOp f) (hst : dev.st = .display d) :
      DeviceMoved s k dev (.operation order focus (.stream bytes)) { dev with st := .display (f env d).1 }
  | selected (order : List Nat) (focus : Nat) (b b' ab : Byte) (d d' : Led) (es : List Effect) (hst : dev.st = .led d)
      (hselect : ledPlugs.onAddress ab b' d = .done d' es) :
      DeviceMoved s k dev (.operation order focus (.ledSelect b)) { dev with st := .led d' }
  | pointed (order : List Nat) (focus : Nat) (hi lo : Byte) (d : Eeprom) (hst : dev.st = .eeprom d) :
      DeviceMoved s k dev (.operation order focus (.eeAddress hi lo))
        { dev with st := .eeprom ((d.takeHigh hi).takeLow hi lo) }
  | called (e : HostEvent) (f : Env → Keypad → Keypad × List Effect) (env : Env) (d : Keypad) (hst : dev.st = .keypad d)
      (hcall : KeyCall e k f) : DeviceMoved s k dev e { dev with st := .keypad (f env d).1 }
  | fired (a : PendingAction) (env : Env) (st : DevState) (es : List Effect) (ha : a ∈ s.pending) (howner : a.owner = k)
      (hdue : Due env dev.st a.payload st es) : DeviceMoved s k dev (.fire a.id) { dev with st := st }
  | destroyed : DeviceMoved s k dev (.destroy k) { dev with live := false, st := dev.st.released }

theorem DeviceMoved.of_devices_eq {s t : State} {k : Nat} {dev new : Device} (e : HostEvent)
    (hdevices : t.devices = s.devices) (hold : s.devices[k]? = some dev) (hnew : t.devices[k]? = some new) :
    DeviceMoved s k dev e new := by
  rw [hdevices, hold] at hnew
  obtain rfl := Option.some.inj hnew
  exact .kept e

theorem ran_device (s t : State) (order : List Nat) (focus : Nat) (enc : Encoded) (k : Nat) (dev new : Device)
    (h : Ran { s with order := order, focus := focus } enc t) (hold : s.devices[k]? = some dev)
    (hnew : t.devices[k]? = some new) : DeviceMoved s k dev (.operation order focus enc) new := by
  cases h with
  | delivered w =>
    rcases deliver_device_env { s with order := order, focus := focus } _ k dev new hold hnew with
      rfl | ⟨hlive, env, st, es, hcfg, hr, rfl⟩
    · exact .kept _
    · exact .heard order focus w env st es hlive hcfg hr
  | replied | ignored => exact .of_devices_eq _ rfl hold hnew
  | onDisplay bytes f hf =>
    rcases onDisplay_cases { s with order := order, focus := focus } f with h | ⟨dev', d, hlive, hst, h⟩ <;>
      rw [h] at hnew
    · exact .of_devices_eq _ rfl hold hnew
    · rcases react_device _ _ k dev' dev new _ hlive hold hnew with rfl | ⟨-, rfl, _, _, ⟨⟩, rfl⟩
      · exact .kept _
      · exact .drawn order focus bytes f _ d hf hst
  | ledSelect b b' =>
    rcases ledSelectByte_cases { s with order := order, focus := focus } b' with h | ⟨dev', d, hlive, hst, h⟩ <;>
      rw [h] at hnew
    · exact .of_devices_eq _ rfl hold hnew
    · rcases react_device _ _ k dev' dev new _ hlive hold hnew with rfl | ⟨-, rfl, st, es, hr, rfl⟩
      · exact .kept _
      · obtain ⟨d', hselect, rfl⟩ := (Reaction.map_eq_done _ _ _ _).mp hr
        exact .selected order focus b b' _ d d' es hst hselect
  | eeAddress hi lo =>
    rcases eeAddressBytes_cases { s with order := order, focus := focus } hi lo with h | ⟨dev', d, hlive, hst, h⟩ <;>
      rw [h] at hnew
    · exact .of_devices_eq _ rfl hold hnew
    · rcases react_device _ _ k dev' dev new _ hlive hold hnew with rfl | ⟨-, rfl, _, _, ⟨⟩, rfl⟩
      · exact .kept _
      · exact .pointed order focus hi lo d hst

theorem fire_device (s : State) (id k : Nat) (dev new : Device) (hold : s.devices[k]? = some dev)
    (hnew : (s.fire id).devices[k]? = some new) : DeviceMoved s k dev (.fire id) new := by
  rcases fire_cases s id with h | ⟨a, ha, rfl, -, h⟩ <;> rw [h] at hnew
  · exact .of_devices_eq _ rfl hold hnew
  · rcases callback_cases (s.takeAction a) a with ⟨h, -⟩ | ⟨dev', st, es, hlive, hdue, h⟩ <;> rw [h] at hnew
    · exact .of_devices_eq _ rfl hold hnew
    · rcases react_device _ _ k dev' dev new _ hlive hold hnew with rfl | ⟨rfl, rfl, _, _, ⟨⟩, rfl⟩
      · exact .kept _
      · exact .fired a _ st es ha rfl hdue

theorem destroy_device (s : State) (j k : Nat) (dev new : Device) (hold : s.devices[k]? = some dev)
    (hnew : (s.destroy j).devices[k]? = some new) : DeviceMoved s k dev (.destroy j) new := by
  unfold State.destroy at hnew
  split at hnew
  · rename_i dev' hlive
    obtain ⟨hdev, -⟩ := (liveDevice?_eq_some s j dev').mp hlive
    by_cases hjk : j = k
    · subst hjk
      have hlt := (List.getElem?_eq_some_iff.mp hdev).1
      obtain rfl : dev' = dev := Option.some.inj (hdev.symm.trans hold)
      obtain rfl : { dev' with live := false, st := dev'.st.released } = new := by simpa [hlt] using hnew
      exact .destroyed
    · obtain rfl : dev = new := by simpa [hjk, hold] using hnew
      exact .kept _
  · exact .of_devices_eq _ rfl hold hnew

theorem moved_device (s t : State) (e : HostEvent) (k : Nat) (dev new : Device) (h : Moved s e t)
    (hold : s.devices[k]? = some dev) (hnew : t.devices[k]? = some new) : DeviceMoved s k dev e new := by
  cases h with
  | operation order focus enc t hran => exact ran_device s t order focus enc k dev new hran hold hnew
  | advance | answered | raised | registered => exact .of_devices_eq _ rfl hold hnew
  | fire id => exact fire_device s id k dev new hold hnew
  | keyCall e j f hcall =>
    rcases onKeypad_cases s j f with h | ⟨dev', d, hlive, hst, h⟩ <;> rw [h] at hnew
    · exact .of_devices_eq _ rfl hold hnew
    · rcases react_device s j k dev' dev new _ hlive hold hnew with rfl | ⟨rfl, rfl, _, _, ⟨⟩, rfl⟩
      · exact .kept _
      · exact .called e f _ d hst hcall
  | attached spec =>
    rcases (attach_device_eq_some s spec k new).mp hnew with h | ⟨rfl, -⟩
    · exact .of_devices_eq _ rfl hold h
    · simp at hold
  | destroyed j => exact destroy_device s j k dev new hold hnew

/-! ## The bytes of an EEPROM -/

/-- The EEPROM takes message `m` as a data byte for address `p`: in DataWrite, below EE_SIZE (R165). -/
structure Eeprom.Stores (cfg : Config) (m : BusMessage) (p : Nat) (d d' : Eeprom) : Prop where
  kind  : m.kind = .write
  phase : d.phase = .dataWrite
  ptr   : d.ptr = some p
  range : p < cfg.eeSize
  buf   : d'.buf = memWrite d.buf p m.data

/-- Of the messages only a WRITE in DataWrite touches the buffer (R168). -/
theorem handle_eeprom_buf (cfg : Config) (m : BusMessage) (d d' : Eeprom) (es : List Effect)
    (h : d.handle cfg m = .done d' es) : d'.buf = d.buf ∨ ∃ p, Eeprom.Stores cfg m p d d' := by
  unfold Eeprom.handle at h
  split at h
  case h_1 | h_5 =>
    cases h
    exact .inl rfl
  case h_2 =>
    unfold Eeprom.onStartR at h
    split at h <;> cases h
    exact .inl rfl
  case h_3 hkind =>
    unfold Eeprom.onWrite at h
    split at h
    case h_3 p hphase hptr =>
      unfold Eeprom.onStore at h
      split at h <;> cases h
      rename_i hrange
      exact .inr ⟨p, hkind, hphase, hptr, Nat.lt_of_not_le hrange, rfl⟩
    all_goals cases h
    all_goals exact .inl rfl
  case h_4 =>
    unfold Eeprom.onRead at h
    split at h
    · split at h <;> cases h
      exact .inl rfl
    · cases h
  case h_6 => cases h

theorem respond_eeprom_buf (env : Env) (m : BusMessage) (dev : Device) (d d' : Eeprom) (es : List Effect)
    (hst : dev.st = .eeprom d) (h : dev.respond env m = .done (.eeprom d') es) :
    d'.buf = d.buf ∨ dev.accepts m.address = true ∧ ∃ p, Eeprom.Stores env.cfg m p d d' := by
  have same (d1 : Eeprom) (hd1 : DevState.eeprom d' = .eeprom d1 ∨ DevState.eeprom d' = (DevState.eeprom d1).reset) :
      d'.buf = d1.buf := by
    rcases hd1 with hd1 | hd1 <;> rw [DevState.eeprom.inj hd1]
    rfl
  rcases respond_eq_done env m dev _ es h with ⟨hacc, st', hhandle, hst'⟩ | ⟨-, hst'⟩
  · rw [hst] at hhandle
    obtain ⟨d1, hd1, rfl⟩ := (Reaction.map_eq_done _ _ _ _).mp hhandle
    rcases handle_eeprom_buf env.cfg m d d1 es hd1 with h1 | ⟨p, h1⟩
    · exact .inl ((same d1 hst').trans h1)
    · exact .inr ⟨hacc, p, { h1 with buf := (same d1 hst').trans h1.buf }⟩
  · exact .inl (same d (hst ▸ hst'))

/-- Of the moves only the arrival of a word touches the buffer of an EEPROM. -/
theorem DeviceMoved.eeprom_buf {s : State} {k : Nat} {dev new : Device} {e : HostEvent} (h : DeviceMoved s k dev e new)
    (d d' : Eeprom) (hst : dev.st = .eeprom d) (hst' : new.st = .eeprom d') :
    d'.buf = d.buf ∨ ∃ order focus w p, e = .operation order focus (.busOut w) ∧ dev.live = true ∧
      dev.accepts (decodeMessage w).address = true ∧ Eeprom.Stores s.cfg (decodeMessage w) p d d' := by
  cases h with
  | kept =>
    rw [hst] at hst'
    cases hst'
    exact .inl rfl
  | heard order focus w env st es hlive hcfg hr =>
    obtain rfl : st = .eeprom d' := hst'
    rcases respond_eeprom_buf env _ dev d d' es hst hr with hbuf | ⟨hacc, p, hstores⟩
    · exact .inl hbuf
    · exact .inr ⟨order, focus, w, p, rfl, hlive, hacc, hcfg ▸ hstores⟩
  | pointed order focus hi lo d0 hst0 =>
    rw [hst] at hst0
    cases hst0
    cases hst'
    exact .inl rfl
  | destroyed =>
    rw [hst] at hst'
    cases hst'
    exact .inl rfl
  | fired a env st es _ _ hdue =>
    rw [hst] at hdue
    cases hdue
  | drawn | selected | called => cases hst'

/-- Settles O60: a step is one move, and of the moves only a data WRITE stores, at the pointer. -/
theorem eepromChangesOnlyByDataWrites : Obligations.EepromChangesOnlyByDataWrites := by
  intro s t k dev dev' d d' j hstep hold hst hnew hst' hchanged
  rcases step_cases s t hstep with rfl | ⟨e, rest, hin, hmoved⟩
  · obtain rfl : dev = dev' := Option.some.inj (hold.symm.trans hnew)
    obtain rfl : d = d' := DevState.eeprom.inj (hst.symm.trans hst')
    exact absurd rfl hchanged
  · rcases (moved_device _ t e k dev dev' hmoved hold hnew).eeprom_buf d d' hst hst' with
      hbuf | ⟨order, focus, w, p, rfl, hlive, hacc, hkind, hphase, hptr, hrange, hbuf⟩
    · exact absurd (by rw [hbuf]) hchanged
    · rw [hbuf] at hchanged ⊢
      obtain rfl : j = p := by
        by_contra hne
        exact hchanged (memRead_write_other _ _ _ _ hne)
      exact ⟨order, focus, w, rest, hin, hlive, hacc, framing_of_kind_write w hkind, hphase, hptr, hrange,
        memRead_write_same _ _ _⟩

end Sys2Proof.Machine
end

section
/-! PROOFS. WRITE and READ where no device is addressed, and READ of a keypad register (R92, R116, R186, R262). -/

namespace Sys2Proof.Machine

theorem exec_write_running (s : State) (v : Byte) (a : BusAddress) (rnw : Bool) (h : s.aborted = none) :
    exec (.write v a rnw) s = .next (s.deliver (writeMessage v a rnw)) :=
  unlessAborted_of_none s (fun s => s.deliver (writeMessage v a rnw)) h

theorem exec_read_running (s : State) (v : Byte) (a : BusAddress) (rnw : Bool) (h : s.aborted = none) :
    exec (.read v a rnw) s = .next (s.deliver (readMessage v a rnw)) :=
  unlessAborted_of_none s (fun s => s.deliver (readMessage v a rnw)) h

/-! ## No device addressed -/

/-- The message without START that no live device accepts is the listener's alone. -/
theorem deliver_noMatch (s : State) (m : BusMessage) (hab : s.aborted = none) (hstart : m.conditions.start = false)
    (hnone : noMatch s m.address) : s.deliver m = ({ s with ab := m.ab } : State).listenOut m :=
  deliver_unmatched s m hab hstart fun _ hj => hnone _ (List.getElem_mem hj)

/-- Settles O16: only the listener is left, which appends the byte of a WRITE and nothing for a READ. -/
theorem unaddressedDevicesIgnoreData : Obligations.UnaddressedDevicesIgnoreData := by
  intro s v a rnw hab hnone
  constructor
  · rw [exec_write_running s v a rnw hab, deliver_noMatch s (writeMessage v a rnw) hab rfl hnone]
    rfl
  · rw [exec_read_running s v a rnw hab, deliver_noMatch s (readMessage v a rnw) hab rfl hnone]
    rfl

/-! ## READ of a keypad register -/

/-- The hook writes registers only. -/
theorem keypad_postRead_eq (d : Keypad) (i : Nat) : d.postRead i = d.withRegs (d.postRead i).core.regs := by
  unfold Keypad.postRead Keypad.pop
  dsimp only
  (repeat' split) <;> rfl

/-- The keypad's answer to a READ in DataRead: the byte before the hook, then the hook and the increment (R116). -/
theorem respond_keypad_read (env : Env) (dev : Device) (d : Keypad) (v : Byte) (a : BusAddress) (rnw : Bool) (i : Nat)
    (hacc : dev.accepts a = true) (hst : dev.st = .keypad d) (hphase : d.core.phase = .dataRead)
    (hsel : d.core.sel = some i) :
    dev.respond env (readMessage v a rnw) = .done
      (.keypad { d with core := { d.core with regs := (d.postRead i).core.regs, sel := some ((i + 1) % 47) } })
      [ackWithByte (regRead d.core.regs i) (addressByte a rnw)] := by
  have hread : kpPlugs.onRead (readMessage v a rnw) d = .done (kpPlugs.stepSel (d.postRead i) i)
      [ackWithByte (regRead d.core.regs i) (addressByte a rnw)] := by
    have hphase' : (kpPlugs.core d).phase = .dataRead := hphase
    have hsel' : (kpPlugs.core d).sel = some i := hsel
    simp only [Plugs.onRead, hphase', hsel']
    rfl
  have hrespond : dev.respond env (readMessage v a rnw) =
      (kpPlugs.onRead (readMessage v a rnw) d).map .keypad := by
    have hacc' : dev.accepts (readMessage v a rnw).address = true := hacc
    rw [Device.respond, if_pos hacc', hst]
    rfl
  rw [hrespond, hread, keypad_postRead_eq]
  rfl

theorem keypad_postRead_regs_of_ne (d : Keypad) (i : Nat) (h : i ≠ kpKeyEventA) :
    (d.postRead i).core.regs = d.core.regs := by
  rw [Keypad.postRead, if_neg h]

theorem keypad_postRead_regs_of_empty (d : Keypad) (i : Nat) (h : kpCount d.core.regs = 0) :
    (d.postRead i).core.regs = d.core.regs := by
  unfold Keypad.postRead Keypad.pop
  simp [h]

theorem keypad_postRead_regs_of_event (d : Keypad) (h : 0 < kpCount d.core.regs) :
    (d.postRead kpKeyEventA).core.regs = fifoPopped d.core.regs (kpCount d.core.regs) := by
  rw [Keypad.postRead, if_pos rfl, Keypad.pop, if_neg h.ne']
  rfl

@[simp] theorem length_fifoPopped (regs : List Byte) (n : Nat) : (fifoPopped regs n).length = regs.length := by
  simp [fifoPopped]

/-- The slots after a pop (R186): those below the last event move down, the last is cleared, the rest stay. -/
theorem kpSlot_fifoPopped (regs : List Byte) (n j : Nat) (hn : kpKeyEventA + n ≤ regs.length) :
    kpSlot (fifoPopped regs n) j =
      if j + 1 < n then kpSlot regs (j + 1) else if j + 1 = n then 0 else kpSlot regs j := by
  have hcount_ne : kpKeyEventA + j ≠ kpKeyLckEc := by
    rw [kpKeyEventA, kpKeyLckEc]
    omega
  by_cases hj : kpKeyEventA + j < regs.length
  · have hslot := regRead_fifoPopped regs n (kpKeyEventA + j) hj
    simpa [kpSlot, hcount_ne, Nat.add_assoc] using hslot
  · rw [if_neg (by omega), if_neg (by omega)]
    simp [kpSlot, regRead, Nat.le_of_not_lt hj]

/-- The registers before the count are not the FIFO's. -/
theorem regRead_fifoPopped_low (regs : List Byte) (n j : Nat) (hj : j < kpKeyLckEc) :
    regRead (fifoPopped regs n) j = regRead regs j := by
  unfold kpKeyLckEc at hj
  by_cases hlen : j < regs.length
  · rw [regRead_fifoPopped regs n j hlen, if_neg (by rw [kpKeyLckEc]; omega), if_neg (by rw [kpKeyEventA]; omega),
      if_neg (by rw [kpKeyEventA]; omega)]
  · simp [regRead, Nat.le_of_not_lt hlen]

/-- Settles O23: READ answers with the register, and the hook pops the FIFO on KEY_EVENT_A. -/
theorem keypadReadsAndPop : Obligations.KeypadReadsAndPop := by
  intro s k dev d v a rnw i haddr hst hphase hsel hok
  obtain ⟨hab, -, hacc, -⟩ := id haddr
  obtain ⟨⟨hlen, -⟩, hfifo, -⟩ := hok
  refine ⟨(d.postRead i).core.regs, ?_, ?_, ?_⟩
  · rw [exec_read_running s v a rnw hab,
      deliver_read_answered s k dev v a rnw _ _ haddr (respond_keypad_read s.env dev d v a rnw i hacc hst hphase hsel)]
  · rintro (hi | hempty)
    · exact keypad_postRead_regs_of_ne d i hi
    · exact keypad_postRead_regs_of_empty d i hempty
  · rintro rfl hevent
    have hpopped : HoldsEvents (fifoPopped d.core.regs (kpCount d.core.regs)) (kpCount d.core.regs - 1) :=
      ((fifoOk_iff _).mp hfifo).pop hlen
    obtain ⟨-, hhigh, -⟩ := hpopped.fifoOk
    obtain ⟨hcap, hhigh_old, -⟩ := hfifo
    have hroom : kpKeyEventA + kpCount d.core.regs ≤ d.core.regs.length :=
      (Nat.add_le_add_left hcap _).trans (by rw [hlen]; decide)
    rw [show (4 : Nat) = kpKeyEventA from rfl, keypad_postRead_regs_of_event d hevent]
    refine ⟨length_fifoPopped _ _, hpopped.count, fun j hj => ?_, ?_, fun j hj => ?_,
      fun j hj => regRead_fifoPopped_low _ _ j hj, hhigh.trans hhigh_old.symm⟩
    · rw [kpSlot_fifoPopped _ _ _ hroom, if_pos hj]
    · rw [kpSlot_fifoPopped _ _ _ hroom, if_neg (by omega), if_pos (by omega)]
    · rw [kpSlot_fifoPopped _ _ _ hroom, if_neg (by omega), if_neg (by omega)]

end Sys2Proof.Machine
end

section
/-! PROOFS. Decoding: what each format decodes to, that it takes every encoding back, and the rows of the bus words
(R61 to R73, R231). -/

namespace Sys2Proof.Machine

/-! ## The bus word -/

theorem decodeMessage_encoded (data flags : Byte) (a : BusAddress) (rnw : Bool) :
    decodeMessage (busWord data (addressByte a rnw) flags) =
      { address := a, rnw := rnw, data := data,
        conditions := { start := flags.getLsbD 0, stop := flags.getLsbD 1, write := flags.getLsbD 4,
                        read := flags.getLsbD 5 } } := by
  rw [decodeMessage_busWord, addressByte_address, addressByte_rnw]

theorem decode_busOut_encoded (data flags : Byte) (a : BusAddress) (rnw : Bool) :
    decode (.busOut (busWord data (addressByte a rnw) flags)) = messageInstr
      { address := a, rnw := rnw, data := data,
        conditions := { start := flags.getLsbD 0, stop := flags.getLsbD 1, write := flags.getLsbD 4,
                        read := flags.getLsbD 5 } } :=
  congrArg messageInstr (decodeMessage_encoded data flags a rnw)

theorem decode_ackWord (a : BusAddress) (rnw : Bool) :
    decode (.busIn (ackWord (addressByte a rnw))) = .ok (.ack 0 a rnw) := by
  rw [decode, decodeBusIn_ackWord, addressByte_address, addressByte_rnw]

theorem decode_ackReadWord (data : Byte) (a : BusAddress) (rnw : Bool) :
    decode (.busIn (ackReadWord data (addressByte a rnw))) = .ok (.ackRead data a rnw) := by
  rw [decode, decodeBusIn_ackReadWord, addressByte_address, addressByte_rnw]

/-! ## Display bytes (R72, R73) -/

theorem decode_stream_whole (bytes : List Byte) (i : Instr) (h : decodeStream bytes = .ok (i, [])) :
    decode (.stream bytes) = .ok i := by
  simp only [decode, h]

/-- No printable byte is a control byte. -/
theorem controlInstr_of_printable (b : Byte) (h : 0x20 ≤ b.toNat) : controlInstr b = none := by
  have hne (c : Byte) (hc : c.toNat < 0x20) : b ≠ c := by
    rintro rfl
    omega
  simp only [controlInstr, hne 0x08 (by decide), hne 0x09 (by decide), hne 0x0A (by decide), hne 0x0B (by decide),
    hne 0x0C (by decide), hne 0x0D (by decide), if_false]

/-- A printable byte alone is the PRINT it stands for (R79). -/
theorem decode_printable (b : Byte) (i : Instr) (h : 0x20 ≤ b.toNat ∧ printInstr b = i) :
    decode (.stream [b]) = .ok i := by
  obtain ⟨hprintable, rfl⟩ := h
  apply decode_stream_whole
  simp only [decodeStream, controlInstr_of_printable b hprintable, if_pos hprintable]

theorem print20Byte_read (c : BitVec 5) : 0x20 ≤ (print20Byte c).toNat ∧ printInstr (print20Byte c) = .print20 c := by
  revert c; decide

theorem print40Byte_read (c : BitVec 6) : 0x20 ≤ (print40Byte c).toNat ∧ printInstr (print40Byte c) = .print40 c := by
  revert c; decide

theorem print80Byte_read (c : BitVec 7) : 0x20 ≤ (print80Byte c).toNat ∧ printInstr (print80Byte c) = .print80 c := by
  revert c; decide

/-- The bytes of a command, whole: no key of the table begins another, so its own row is the one found. -/
theorem decode_command (row : CommandRow) (hrow : row ∈ defaultCommandTable) (fixed varArgs : List Byte)
    (hfixed : fixed.length = row.fixedLen) (hvar : varArgs.length = dynLength row.dynLen fixed) :
    decode (.stream (row.key ++ (fixed ++ varArgs))) = .ok (commandInstr row.command fixed varArgs) := by
  have hfind : defaultCommandTable.find? (fun r => r.key.isPrefixOf (row.key ++ (fixed ++ varArgs))) = some row := by
    fin_cases hrow <;> rfl
  have hstream : decodeStream (row.key ++ (fixed ++ varArgs)) = decodeCommand (row.key ++ (fixed ++ varArgs)) := by
    fin_cases hrow <;> rfl
  apply decode_stream_whole
  rw [hstream, decodeCommand, hfind]
  simp [← hfixed, ← hvar]

theorem decode_usImage (xL xH yL yH g : Byte) (payload : List Byte) (h : payload.length = imageBytes xL xH yL yH) :
    decode (encode (.usImage xL xH yL yH g payload)) = .ok (.usImage xL xH yL yH g payload) :=
  decode_command ⟨[0x1F, 0x28, 0x66, 0x11], 5, .imageSize, .usImage⟩ (by decide) [xL, xH, yL, yH, g] payload rfl h

theorem decode_usWinDefine (a b : Byte) (payload : List Byte) (h : payload.length = windowBytes b) :
    decode (encode (.usWinDefine a b payload)) = .ok (.usWinDefine a b payload) :=
  decode_command ⟨[0x1F, 0x28, 0x77, 0x02], 2, .windowDefine, .usWinDefine⟩ (by decide) [a, b] payload rfl h

/-! ## The operands -/

theorem ledctlByte_fields : ∀ (ai : Bool) (reg : BitVec 5),
    (ledctlByte ai reg).extractLsb' 5 2 = 0 ∧ (ledctlByte ai reg).getLsbD 7 = ai ∧
    (ledctlByte ai reg).extractLsb' 0 5 = reg ∧
    (ledctlByte ai reg).toNat = (if ai then 128 else 0) + reg.toNat := by decide

theorem decodeLedctl_ledctlByte (ai : Bool) (reg : BitVec 5) :
    decodeLedctl (ledctlByte ai reg) = .ok (.ledctl ai reg) := by
  obtain ⟨hgap, hai, hreg, -⟩ := ledctlByte_fields ai reg
  rw [decodeLedctl, if_pos hgap, hai, hreg]

/-- Settles O3: by format, each command through its row of the table. -/
theorem decodeOfEncode : Obligations.DecodeOfEncode := by
  intro i hwf
  cases i with
  | startW data a => exact decode_busOut_encoded data flagStart a false
  | startR data a => exact decode_busOut_encoded data flagStart a true
  | write data a rnw => exact decode_busOut_encoded data flagWrite a rnw
  | read data a rnw => exact decode_busOut_encoded data flagRead a rnw
  | stop data a rnw => exact decode_busOut_encoded data flagStop a rnw
  | ack data a rnw =>
    obtain rfl : data = 0 := beq_iff_eq.mp hwf
    exact decode_ackWord a rnw
  | ackRead data a rnw => exact decode_ackReadWord data a rnw
  | bs | ht | lf | hom | clr | cr => rfl
  | print20 c => exact decode_printable _ _ (print20Byte_read c)
  | print40 c => exact decode_printable _ _ (print40Byte_read c)
  | print80 c => exact decode_printable _ _ (print80Byte_read c)
  | escInit => exact decode_command ⟨[0x1B, 0x40], 0, .none, .escInit⟩ (by decide) [] [] rfl rfl
  | usCursor xL xH yL yH =>
    exact decode_command ⟨[0x1F, 0x24], 4, .none, .usCursor⟩ (by decide) [xL, xH, yL, yH] [] rfl rfl
  | usMag x y => exact decode_command ⟨[0x1F, 0x28, 0x67, 0x40], 2, .none, .usMag⟩ (by decide) [x, y] [] rfl rfl
  | usImage xL xH yL yH g payload => exact decode_usImage xL xH yL yH g payload (beq_iff_eq.mp hwf)
  | usScroll wL wH cL cH sp =>
    exact decode_command ⟨[0x1F, 0x28, 0x61, 0x10], 5, .none, .usScroll⟩ (by decide) [wL, wH, cL, cH, sp] [] rfl rfl
  | usBlink p t1 t2 c =>
    exact decode_command ⟨[0x1F, 0x28, 0x61, 0x11], 4, .none, .usBlink⟩ (by decide) [p, t1, t2, c] [] rfl rfl
  | usWinSelect a => exact decode_command ⟨[0x1F, 0x28, 0x77, 0x01], 1, .none, .usWinSelect⟩ (by decide) [a] [] rfl rfl
  | usWinDefine a b payload => exact decode_usWinDefine a b payload (beq_iff_eq.mp hwf)
  | ledctl ai reg => exact decodeLedctl_ledctlByte ai reg
  | eeaddr hi lo => rfl

/-- Settles O2: each word is computed. -/
theorem writtenWordsDecode : Obligations.WrittenWordsDecode := by
  refine ⟨?_, ?_, ?_, ?_, ?_, ?_, ?_, ?_, ?_, ?_, ?_, ?_, ?_⟩ <;> decide

/-! ## The rows of the bus words (R64, R66) -/

/-- What a message of each kind decodes to. -/
def kindInstr (m : BusMessage) : MessageKind → Except Reject Instr
  | .startW => .ok (.startW m.data m.address)
  | .startR => .ok (.startR m.data m.address)
  | .write => .ok (.write m.data m.address m.rnw)
  | .read => .ok (.read m.data m.address m.rnw)
  | .stop => .ok (.stop m.data m.address m.rnw)
  | .malformed => .error .malformedMessage

/-- What a word on BUS_OUT decodes to tells its kind. -/
theorem decode_busOut_iff (w : BusWord) (kind : MessageKind) :
    decode (.busOut w) = kindInstr (decodeMessage w) kind ↔ (decodeMessage w).kind = kind := by
  have hdecode : decode (.busOut w) = kindInstr (decodeMessage w) (decodeMessage w).kind := rfl
  rw [hdecode]
  cases (decodeMessage w).kind <;> cases kind <;> simp [kindInstr]

/-- The kind of a message without its address and its data, which do not enter (R64). -/
def framingKind (start stop write read rnw : Bool) : MessageKind :=
  BusMessage.kind { address := 0, rnw := rnw, data := 0,
                    conditions := { start := start, stop := stop, write := write, read := read } }

theorem decodeMessage_kind (w : BusWord) : (decodeMessage w).kind =
    framingKind (w.getLsbD 8) (w.getLsbD 9) (w.getLsbD 12) (w.getLsbD 13) (w.getLsbD 16) := rfl

/-- The bits of a word the rows of R66 look at, in place. -/
def rowBits (start stop ack write read rnw : Bool) : BusWord :=
  (0 : BitVec 15) ++ BitVec.ofBool rnw ++ (0 : BitVec 2) ++ BitVec.ofBool read ++ BitVec.ofBool write ++
    BitVec.ofBool ack ++ (0 : BitVec 1) ++ BitVec.ofBool stop ++ BitVec.ofBool start ++ (0 : Byte)

theorem and_rowMask (w : BusWord) : w &&& 0x00013B00 = rowBits (w.getLsbD 8) (w.getLsbD 9) (w.getLsbD 11)
    (w.getLsbD 12) (w.getLsbD 13) (w.getLsbD 16) := by
  apply BitVec.eq_of_getLsbD_eq
  intro i hi
  simp only [rowBits, BitVec.getLsbD_append, BitVec.getLsbD_and]
  interval_cases i <;> simp

/-- Under a narrower mask a word is what its row's bits are. -/
theorem and_narrowMask (w mask : BusWord) (h : 0x00013B00 &&& mask = mask) :
    w &&& mask = rowBits (w.getLsbD 8) (w.getLsbD 9) (w.getLsbD 11) (w.getLsbD 12) (w.getLsbD 13) (w.getLsbD 16)
      &&& mask := by
  rw [← and_rowMask, BitVec.and_assoc, h]

/-- The mask and the value of R66 that single out a kind of message. -/
def MessageKind.row? : MessageKind → Option (BusWord × BusWord)
  | .startW => some (0x00013300, 0x00000100)
  | .startR => some (0x00013300, 0x00010100)
  | .write => some (0x00003300, 0x00001000)
  | .read => some (0x00003300, 0x00002000)
  | .stop => some (0x00003300, 0x00000200)
  | .malformed => none

theorem framingKind_iff_row (kind : MessageKind) (mask value : BusWord) (hrow : kind.row? = some (mask, value)) :
    ∀ start stop ack write read rnw : Bool,
      framingKind start stop write read rnw = kind ↔ rowBits start stop ack write read rnw &&& mask = value := by
  cases kind <;> cases hrow <;> decide

/-- A word decodes to the instruction of its kind exactly when it has the row's value under the row's mask. -/
theorem decode_busOut_iff_row (w : BusWord) (kind : MessageKind) (mask value : BusWord)
    (hrow : kind.row? = some (mask, value)) :
    decode (.busOut w) = kindInstr (decodeMessage w) kind ↔ w &&& mask = value := by
  have hnarrow : 0x00013B00 &&& mask = mask := by
    cases kind <;> cases hrow <;> decide
  rw [decode_busOut_iff, decodeMessage_kind, and_narrowMask w mask hnarrow]
  exact framingKind_iff_row kind mask value hrow _ _ _ _ _ _

/-- The kinds are all there are: a word is MALFORMED exactly when no row matches (R64). -/
theorem decode_busOut_malformed_iff (w : BusWord) :
    decode (.busOut w) = .error .malformedMessage ↔
      ∀ kind mask value, MessageKind.row? kind = some (mask, value) → w &&& mask ≠ value := by
  have hmalformed := decode_busOut_iff w .malformed
  rw [show kindInstr (decodeMessage w) .malformed = .error .malformedMessage from rfl] at hmalformed
  rw [hmalformed]
  constructor
  · intro hkind kind mask value hrow hmatch
    have := (decode_busOut_iff w kind).mp ((decode_busOut_iff_row w kind mask value hrow).mpr hmatch)
    rw [← this, hkind] at hrow
    cases hrow
  · intro hnone
    cases hrow : (decodeMessage w).kind.row? with
    | some row =>
      exact absurd ((decode_busOut_iff_row w _ _ _ hrow).mp ((decode_busOut_iff w _).mpr rfl)) (hnone _ _ _ hrow)
    | none =>
      revert hrow
      cases (decodeMessage w).kind <;> simp [MessageKind.row?]

/-- What a word on BUS_IN decodes to, by its flags. -/
theorem decode_busIn_eq (w : BusWord) : decode (.busIn w) =
    if (w.getLsbD 11 && !w.getLsbD 8 && !w.getLsbD 9 && !w.getLsbD 12) = true then
      if w.getLsbD 13 = true then .ok (.ackRead (w.extractLsb' 24 8) (w.extractLsb' 17 7) (w.getLsbD 16))
      else .ok (.ack (w.extractLsb' 24 8) (w.extractLsb' 17 7) (w.getLsbD 16))
    else .error .notAReply := rfl

theorem decode_busIn_iff (w : BusWord) :
    (decode (.busIn w) = .ok (.ack (w.extractLsb' 24 8) (w.extractLsb' 17 7) (w.getLsbD 16)) ↔
      (w.getLsbD 11 && !w.getLsbD 8 && !w.getLsbD 9 && !w.getLsbD 12) = true ∧ w.getLsbD 13 = false) ∧
    (decode (.busIn w) = .ok (.ackRead (w.extractLsb' 24 8) (w.extractLsb' 17 7) (w.getLsbD 16)) ↔
      (w.getLsbD 11 && !w.getLsbD 8 && !w.getLsbD 9 && !w.getLsbD 12) = true ∧ w.getLsbD 13 = true) := by
  rw [decode_busIn_eq]
  generalize (w.getLsbD 11 && !w.getLsbD 8 && !w.getLsbD 9 && !w.getLsbD 12) = reply
  cases reply <;> cases w.getLsbD 13 <;> simp

theorem replyFlags_iff_row : ∀ start stop ack write read rnw : Bool,
    ((ack && !start && !stop && !write) = true ∧ read = false ↔
      rowBits start stop ack write read rnw &&& 0x00003B00 = 0x00000800) ∧
    ((ack && !start && !stop && !write) = true ∧ read = true ↔
      rowBits start stop ack write read rnw &&& 0x00003B00 = 0x00002800) := by
  decide

/-- Settles O4: a word's kind and its row are the same function of its framing bits. -/
theorem busWordsMatchTheirRows : Obligations.BusWordsMatchTheirRows := by
  intro w
  obtain ⟨hack, hackRead⟩ := decode_busIn_iff w
  obtain ⟨hackRow, hackReadRow⟩ := replyFlags_iff_row (w.getLsbD 8) (w.getLsbD 9) (w.getLsbD 11) (w.getLsbD 12)
    (w.getLsbD 13) (w.getLsbD 16)
  rw [← and_narrowMask w 0x00003B00 (by decide)] at hackRow hackReadRow
  refine ⟨decode_busOut_iff_row w .startW _ _ rfl, decode_busOut_iff_row w .startR _ _ rfl,
    decode_busOut_iff_row w .write _ _ rfl, decode_busOut_iff_row w .read _ _ rfl,
    decode_busOut_iff_row w .stop _ _ rfl, (decode_busOut_malformed_iff w).trans ⟨fun hnone => ?_, ?_⟩,
    hack.trans hackRow, hackRead.trans hackReadRow⟩
  · exact ⟨hnone .startW _ _ rfl, hnone .startR _ _ rfl, hnone .write _ _ rfl, hnone .read _ _ rfl,
      hnone .stop _ _ rfl⟩
  · rintro ⟨hstartW, hstartR, hwrite, hread, hstop⟩ kind mask value hrow
    cases kind <;> cases hrow <;> assumption

end Sys2Proof.Machine
end

section
/-! PROOFS. A reply run alone, and the address bytes of the LED driver and the EEPROM, on the bus and as operand rows
(R65, R114, R162, R163, R207). -/

namespace Sys2Proof.Machine

theorem busIn_ackWord (ab : Byte) : OutputEvent.busIn (ackWord ab) = ackEvent ab := rfl

/-- Settles O28: the listener appends nothing for an ACK. -/
theorem ackRaisesAckWord : Obligations.AckWord := by
  intro s data a rnw hab
  have hexec : exec (.ack data a rnw) s = s.unlessAborted (fun s => s.emitBusIn (ackWord (addressByte a rnw))) := rfl
  rw [hexec, unlessAborted_of_none s _ hab, State.emitBusIn, txReply_ackWord]
  rfl

/-! ## The address-selection byte of the LED driver (R207) -/

theorem led_onAddress_selected (d : Led) (ab b : Byte) (hgap : b.extractLsb' 5 2 = 0)
    (hreg : (b.extractLsb' 0 5).toNat ≤ 0x1B) :
    ledPlugs.onAddress ab b d = .done
      { d with core := { d.core with sel := some (b.extractLsb' 0 5).toNat, phase := .dataWrite },
               autoinc := b.getLsbD 7 } [ackOnly ab] := by
  have hselect : ledPlugs.select d b = .ok
      { d with core := { d.core with sel := some (b.extractLsb' 0 5).toNat }, autoinc := b.getLsbD 7 } := by
    show d.select b = _
    simp only [Led.select, hgap, ne_eq, not_true_eq_false, if_false]
    exact if_neg hreg.not_gt
  rw [Plugs.onAddress, hselect]
  rfl

theorem led_onAddress_outOfRange (d : Led) (ab b : Byte) (hgap : b.extractLsb' 5 2 = 0)
    (hreg : 0x1B < (b.extractLsb' 0 5).toNat) :
    ledPlugs.onAddress ab b d = .raise .outOfRange (.index b.toNat) := by
  have hselect : ledPlugs.select d b = .error (.outOfRange, .index b.toNat) := by
    show d.select b = _
    simp only [Led.select, hgap, ne_eq, not_true_eq_false, if_false]
    exact if_pos hreg
  rw [Plugs.onAddress, hselect]

theorem led_onAddress_unimplemented (d : Led) (ab b : Byte) (hgap : b.extractLsb' 5 2 ≠ 0) :
    ledPlugs.onAddress ab b d = .raise .unimplemented (.feature b.toNat) := by
  have hselect : ledPlugs.select d b = .error (.unimplemented, .feature b.toNat) := by
    show d.select b = _
    simp only [Led.select, if_pos hgap]
  rw [Plugs.onAddress, hselect]

/-! ## WRITE at the device it addresses -/

theorem respond_accepted (env : Env) (m : BusMessage) (dev : Device) (hacc : dev.accepts m.address = true) :
    dev.respond env m = dev.st.matched env m := if_pos hacc

theorem respond_led_address (env : Env) (dev : Device) (d : Led) (v : Byte) (a : BusAddress) (rnw : Bool)
    (hacc : dev.accepts a = true) (hst : dev.st = .led d) (hphase : d.core.phase = .addressPhase) :
    dev.respond env (writeMessage v a rnw) = (ledPlugs.onAddress (addressByte a rnw) v d).map .led := by
  have hphase' : (ledPlugs.core d).phase = .addressPhase := hphase
  have hwrite : ledPlugs.onWrite (writeMessage v a rnw) d = ledPlugs.onAddress (addressByte a rnw) v d := by
    simp only [Plugs.onWrite, hphase']
    rfl
  rw [respond_accepted env (writeMessage v a rnw) dev hacc, hst, ← hwrite]
  rfl

/-- A WRITE the addressed device turns into an abort, as a step. -/
theorem exec_write_raised (s : State) (k : Nat) (dev : Device) (v : Byte) (a : BusAddress) (rnw : Bool) (c : Cause)
    (info : FaultInfo) (h : addressed s k dev a) (hr : dev.respond s.env (writeMessage v a rnw) = .raise c info) :
    ∃ t, exec (.write v a rnw) s = .next t ∧
      abortedAt s t k c info (addressByte a rnw) (heardByte s.openTx v) := by
  obtain ⟨hab, -⟩ := id h
  exact ⟨_, exec_write_running s v a rnw hab, deliver_write_raised s k dev v a rnw c info h hr⟩

/-- A WRITE the addressed device takes, as a step. -/
theorem exec_write_acked (s : State) (k : Nat) (dev : Device) (v : Byte) (a : BusAddress) (rnw : Bool) (st : DevState)
    (h : addressed s k dev a)
    (hr : dev.respond s.env (writeMessage v a rnw) = .done st [ackOnly (addressByte a rnw)]) :
    exec (.write v a rnw) s = .next (s.wrote k dev st v (addressByte a rnw)) := by
  obtain ⟨hab, -⟩ := id h
  rw [exec_write_running s v a rnw hab, deliver_write_acked s k dev v a rnw st h hr]

/-- Settles O18: the three branches of the selection, each as the delivery of its reaction. -/
theorem ledRegisterSelectedByAddressByte : Obligations.LedRegisterSelectedByAddressByte := by
  intro s k dev d b a rnw haddr hst hphase
  obtain ⟨-, -, hacc, -⟩ := id haddr
  have hrespond := respond_led_address s.env dev d b a rnw hacc hst hphase
  have hreg : (b.extractLsb' 0 5).toNat = b.toNat % 32 := by simp [BitVec.extractLsb'_toNat]
  refine ⟨fun hgap hle => ?_, fun hgap hlt => ?_, fun hgap => ?_⟩
  · rw [led_onAddress_selected d _ b hgap (hreg.trans_le hle), hreg] at hrespond
    exact exec_write_acked s k dev b a rnw _ haddr hrespond
  · rw [led_onAddress_outOfRange d _ b hgap (hlt.trans_eq hreg.symm)] at hrespond
    exact exec_write_raised s k dev b a rnw _ _ haddr hrespond
  · rw [led_onAddress_unimplemented d _ b hgap] at hrespond
    exact exec_write_raised s k dev b a rnw _ _ haddr hrespond

theorem respond_eeprom_write (env : Env) (dev : Device) (d : Eeprom) (v : Byte) (a : BusAddress) (rnw : Bool)
    (hacc : dev.accepts a = true) (hst : dev.st = .eeprom d) :
    dev.respond env (writeMessage v a rnw) = (d.onWrite env.cfg (writeMessage v a rnw)).map .eeprom := by
  rw [respond_accepted env (writeMessage v a rnw) dev hacc, hst]
  rfl

theorem eeprom_onWrite_high (cfg : Config) (m : BusMessage) (d : Eeprom) (hphase : d.phase = .addressingHigh) :
    d.onWrite cfg m = .done { d with addrHi := some m.data, phase := .addressingLow } [ackOnly m.ab] := by
  simp only [Eeprom.onWrite, hphase, Eeprom.takeHigh]

theorem eeprom_onWrite_low (cfg : Config) (m : BusMessage) (d : Eeprom) (hi : Byte) (hphase : d.phase = .addressingLow)
    (hhi : d.addrHi = some hi) :
    d.onWrite cfg m = .done { d with ptr := some (256 * hi.toNat + m.data.toNat), addrHi := none, phase := .dataWrite }
      [ackOnly m.ab] := by
  simp only [Eeprom.onWrite, hphase, hhi, Eeprom.takeLow, eeAddress]

/-- Settles O24: the two addressing phases. -/
theorem eepromAddressBytes : Obligations.EepromAddressBytes := by
  constructor
  · intro s k dev d b a rnw haddr hst hphase
    obtain ⟨-, -, hacc, -⟩ := id haddr
    apply exec_write_acked s k dev b a rnw _ haddr
    rw [respond_eeprom_write s.env dev d b a rnw hacc hst, eeprom_onWrite_high _ _ d hphase]
    rfl
  · intro s k dev d hi b a rnw haddr hst hphase hhi
    obtain ⟨-, -, hacc, -⟩ := id haddr
    apply exec_write_acked s k dev b a rnw _ haddr
    rw [respond_eeprom_write s.env dev d b a rnw hacc hst, eeprom_onWrite_low _ _ d hi hphase hhi]
    rfl

/-! ## The operand rows (logs 9 and 18) -/

theorem exec_ledctl_focused (s : State) (dev : Device) (d : Led) (ai : Bool) (reg : BitVec 5) (h : focused s dev)
    (hst : dev.st = .led d) :
    exec (.ledctl ai reg) s =
      .next (s.react s.focus dev ((ledPlugs.onAddress s.ab (ledctlByte ai reg) d).map .led)) := by
  obtain ⟨hab, hlive⟩ := h
  have hexec : exec (.ledctl ai reg) s = s.unlessAborted (fun s => s.ledSelectByte (ledctlByte ai reg)) := rfl
  rw [hexec, unlessAborted_of_none s _ hab, State.ledSelectByte, show s.liveDevice? s.focus = some dev from hlive]
  simp only [hst]

theorem exec_eeaddr_focused (s : State) (dev : Device) (d : Eeprom) (hi lo : Byte) (h : focused s dev)
    (hst : dev.st = .eeprom d) :
    exec (.eeaddr hi lo) s = .next (s.react s.focus dev ((d.address s.ab hi lo).map .eeprom)) := by
  obtain ⟨hab, hlive⟩ := h
  have hexec : exec (.eeaddr hi lo) s = s.unlessAborted (fun s => s.eeAddressBytes hi lo) := rfl
  rw [hexec, unlessAborted_of_none s _ hab, State.eeAddressBytes, show s.liveDevice? s.focus = some dev from hlive]
  simp only [hst]

theorem emitBusIn_ackWord (s : State) (ab : Byte) :
    s.emitBusIn (ackWord ab) = { s with trace := s.trace ++ [ackEvent ab] } := by
  rw [State.emitBusIn, txReply_ackWord, busIn_ackWord]

/-- Settles O43: LEDCTL's byte has bits 6:5 zero, so only the range of the register decides. -/
theorem ledctlSelects : Obligations.LedctlSelects := by
  intro s dev d ai reg hf hst
  obtain ⟨hgap, hai, hreg, hbyte⟩ := ledctlByte_fields ai reg
  rw [exec_ledctl_focused s dev d ai reg hf hst]
  refine ⟨fun hle => ?_, fun hlt => ?_⟩
  · rw [led_onAddress_selected d _ _ hgap (hreg.symm ▸ hle), hreg, hai]
    exact congrArg _ (emitBusIn_ackWord _ _)
  · rw [led_onAddress_outOfRange d _ _ hgap (hreg.symm ▸ hlt), hbyte]
    rfl

/-- Settles O44: R162 and then R163, and the two replies. -/
theorem eeaddrSetsThePointer : Obligations.EeaddrSetsThePointer := by
  intro s dev d hi lo hf hst
  rw [exec_eeaddr_focused s dev d hi lo hf hst]
  have hreplies : ∀ t : State, (t.emitBusIn (ackWord s.ab)).emitBusIn (ackWord s.ab) =
      { t with trace := t.trace ++ [ackEvent s.ab, ackEvent s.ab] } := by
    intro t
    simp [emitBusIn_ackWord]
  exact congrArg _ (hreplies _)

end Sys2Proof.Machine
end

section
/-! PROOFS. MALFORMED words (R64, R92, R96, R265). -/

namespace Sys2Proof.Machine

/-! ## What a MALFORMED word does to one subscriber -/

theorem reset_eq_protocolReset (st : DevState) : st.reset = st.protocolReset := by
  cases st <;> rfl

theorem respond_malformed_matched (env : Env) (m : BusMessage) (dev : Device) (hkind : m.kind = .malformed)
    (hacc : dev.accepts m.address = true) : dev.respond env m = .raise .protocolDesync (.message m) := by
  rw [respond_accepted env m dev hacc, DevState.matched, hkind]

theorem respond_unmatched (env : Env) (m : BusMessage) (dev : Device) (hacc : dev.accepts m.address = false) :
    dev.respond env m = .done (if m.conditions.start then dev.st.reset else dev.st) [] := by
  simp only [Device.respond, hacc]
  rfl

/-- What the listener keeps that a message on BUS_OUT can change (R261, R262, R264). -/
def State.transcript (s : State) : Option Transaction × List Transaction × List (Nat × Transaction) :=
  (s.openTx, s.finished, s.calls)

/-- The listener reads its own record and the callback only. -/
theorem listenOut_transcript (s t : State) (m : BusMessage) (h : t.transcript = s.transcript)
    (hcb : t.onComplete = s.onComplete) : (t.listenOut m).transcript = (s.listenOut m).transcript := by
  obtain ⟨hopen, hfinished, hcalls⟩ : t.openTx = s.openTx ∧ t.finished = s.finished ∧ t.calls = s.calls := by
    simpa [State.transcript] using h
  unfold State.listenOut
  (repeat' split) <;>
    simp [State.transcript, State.listenStart, State.listenStop, State.listenWrite, hopen, hfinished, hcalls, hcb]

theorem foldl_subscriber_aborted (m : BusMessage) (ks : List Nat) (s : State) (r : FaultRecord)
    (h : s.aborted = some r) : ks.foldl (State.subscriber m) s = s := by
  induction ks with
  | nil => rfl
  | cons k ks ih => rw [List.foldl_cons, subscriber_aborted s m k r h, ih]

/-! ## The delivery up to the device that aborts it -/

/-- The delivery of `m` from `s` has come to `t`, no device having accepted the message yet, and the subscribers `ks`
are still to be called: their devices are as they were, and the listener has heard the message unless it is one of
them. -/
structure Delivering (s : State) (m : BusMessage) (ks : List Nat) (t : State) : Prop where
  running    : t.aborted = none
  length     : t.devices.length = s.devices.length
  waiting    : ∀ j ∈ ks, t.devices[j]? = s.devices[j]?
  trace      : t.trace = s.trace
  pending    : t.pending = s.pending
  dbglog     : t.dbglog = s.dbglog
  onComplete : t.onComplete = s.onComplete
  transcript : t.transcript = if s.devices.length ∈ ks then s.transcript else (s.listenOut m).transcript

/-- The delivery of `m` from `s` ended in `t` at a device that accepts the message. -/
structure Desynced (s : State) (m : BusMessage) (k : Nat) (dev : Device) (t : State) : Prop where
  live       : liveAt s k dev
  accepts    : dev.accepts m.address = true
  aborted    : t.aborted = some { cause := .protocolDesync, device := k, info := .message m }
  device     : t.devices[k]? = some dev
  trace      : t.trace = s.trace
  pending    : t.pending = s.pending
  dbglog     : t.dbglog = s.dbglog
  transcript : t.transcript = s.transcript ∨ t.transcript = (s.listenOut m).transcript

section
variable {s t : State} {m : BusMessage} {j : Nat} {ks : List Nat}

theorem Delivering.live_iff (h : Delivering s m (j :: ks) t) (dev : Device) : liveAt t j dev ↔ liveAt s j dev := by
  rw [liveAt, liveAt, liveDevice?_eq_some, liveDevice?_eq_some, h.waiting j List.mem_cons_self]

/-- The listener is called. -/
theorem Delivering.listener (h : Delivering s m (s.devices.length :: ks) t) (hnd : s.devices.length ∉ ks) :
    Delivering s m ks (t.subscriber m s.devices.length) := by
  have hcall : t.subscriber m s.devices.length = t.listenOut m := h.length ▸ subscriber_listener t m h.running
  have htranscript : t.transcript = s.transcript := h.transcript.trans (if_pos List.mem_cons_self)
  rw [hcall]
  exact {
    running := (listenOut_aborted t m).trans h.running
    length := by rw [listenOut_devices, h.length]
    waiting := fun i hi => by rw [listenOut_devices, h.waiting i (List.mem_cons_of_mem _ hi)]
    trace := (listenOut_trace t m).trans h.trace
    pending := (listenOut_pending t m).trans h.pending
    dbglog := (listenOut_dbglog t m).trans h.dbglog
    onComplete := (listenOut_onComplete t m).trans h.onComplete
    transcript := (listenOut_transcript s t m htranscript h.onComplete).trans (if_neg hnd).symm }

/-- A subscriber that leaves everything as it is but the device at `j`. -/
theorem Delivering.setDevice (h : Delivering s m (j :: ks) t) (hnd : j ∉ ks) (hj : j ≠ s.devices.length)
    (dev : Device) : Delivering s m ks (t.setDevice j dev) where
  running := h.running
  length := by rw [setDevice_devices, List.length_set, h.length]
  waiting := fun i hi => by
    have hij : j ≠ i := fun heq => hnd (heq ▸ hi)
    rw [setDevice_devices, List.getElem?_set_ne hij, h.waiting i (List.mem_cons_of_mem _ hi)]
  trace := h.trace
  pending := h.pending
  dbglog := h.dbglog
  onComplete := h.onComplete
  transcript := by
    have hmem : s.devices.length ∈ j :: ks ↔ s.devices.length ∈ ks := by simp [Ne.symm hj]
    have htranscript := h.transcript
    simp only [hmem] at htranscript
    exact htranscript

/-- A device that does not accept the message, or is destroyed, is called. -/
theorem Delivering.unmatched (h : Delivering s m (j :: ks) t) (hnd : j ∉ ks) (hj : j ≠ s.devices.length)
    (hlt : j < s.devices.length) (hno : ∀ dev, liveAt s j dev → dev.accepts m.address = false) :
    Delivering s m ks (t.subscriber m j) := by
  rw [subscriber_device t m j h.running (h.length ▸ hj)]
  rcases adapter_cases t m j with hcall | ⟨dev, hlive, hcall⟩
  · have hdev : t.devices[j]? = some (t.devices[j]'(h.length ▸ hlt)) := List.getElem?_eq_getElem _
    rw [hcall, ← setDevice_same t j _ hdev]
    exact h.setDevice hnd hj _
  · rw [hcall, respond_unmatched _ m dev (hno dev ((h.live_iff dev).mp hlive))]
    exact h.setDevice hnd hj _

/-- A device that accepts the message is called: the run aborts (R96). -/
theorem Delivering.matched (h : Delivering s m (j :: ks) t) (hkind : m.kind = .malformed) (hj : j ≠ s.devices.length)
    (dev : Device) (hlive : liveAt s j dev) (hacc : dev.accepts m.address = true) :
    Desynced s m j dev (t.subscriber m j) := by
  have hlive' := (h.live_iff dev).mpr hlive
  rw [subscriber_device t m j h.running (h.length ▸ hj), adapter_react t j dev m hlive',
    respond_malformed_matched _ m dev hkind hacc]
  refine ⟨hlive, hacc, rfl, ((liveDevice?_eq_some t j dev).mp hlive').1, h.trace, h.pending, h.dbglog, ?_⟩
  have htranscript := h.transcript
  split at htranscript
  · exact .inl htranscript
  · exact .inr htranscript

theorem Delivering.desynced (hkind : m.kind = .malformed) (h : Delivering s m ks t) (hnd : ks.Nodup)
    (hle : ∀ i ∈ ks, i ≤ s.devices.length)
    (hmatch : ∃ i ∈ ks, ∃ dev, liveAt s i dev ∧ dev.accepts m.address = true) :
    ∃ k dev, Desynced s m k dev (ks.foldl (State.subscriber m) t) := by
  induction ks generalizing t with
  | nil => simp at hmatch
  | cons j ks ih =>
    obtain ⟨hjks, hnd'⟩ := List.nodup_cons.mp hnd
    have hle' : ∀ i ∈ ks, i ≤ s.devices.length := fun i hi => hle i (List.mem_cons_of_mem _ hi)
    rw [List.foldl_cons]
    by_cases hj : ∃ dev, liveAt s j dev ∧ dev.accepts m.address = true
    · obtain ⟨dev, hlive, hacc⟩ := hj
      have hlt := (List.getElem?_eq_some_iff.mp ((liveDevice?_eq_some s j dev).mp hlive).1).1
      have hend := h.matched hkind hlt.ne dev hlive hacc
      rw [foldl_subscriber_aborted m ks _ _ hend.aborted]
      exact ⟨j, dev, hend⟩
    · have hrest : ∃ i ∈ ks, ∃ dev, liveAt s i dev ∧ dev.accepts m.address = true := by
        obtain ⟨i, hi, hdev⟩ := hmatch
        rcases List.mem_cons.mp hi with rfl | hi
        · exact absurd hdev hj
        · exact ⟨i, hi, hdev⟩
      refine ih ?_ hnd' hle' hrest
      rcases (hle j List.mem_cons_self).eq_or_lt with rfl | hlt
      · exact h.listener hjks
      · exact h.unmatched hjks hlt.ne hlt fun dev hlive => by
          simpa using fun hacc => hj ⟨dev, hlive, hacc⟩

end

/-- A MALFORMED message some live device accepts: the delivery ends at such a device, in whatever order. -/
theorem deliver_malformed_matched (s : State) (m : BusMessage) (hab : s.aborted = none) (hkind : m.kind = .malformed)
    (hmatch : ∃ dev ∈ s.devices, dev.live = true ∧ dev.accepts m.address = true) :
    ∃ k dev, Desynced s m k dev (s.deliver m) := by
  have hstart : Delivering s m (deliveryOrder s.devices.length s.order) { s with ab := m.ab } :=
    { running := hab, length := rfl, waiting := fun _ _ => rfl, trace := rfl, pending := rfl, dbglog := rfl,
      onComplete := rfl, transcript := (if_pos ((mem_deliveryOrder _ _ _).mpr le_rfl)).symm }
  refine hstart.desynced hkind (deliveryOrder_nodup _ _) (fun i hi => (mem_deliveryOrder _ _ i).mp hi) ?_
  obtain ⟨dev, hmem, hlive, hacc⟩ := hmatch
  obtain ⟨i, hi⟩ := List.mem_iff_getElem?.mp hmem
  have hlt := (List.getElem?_eq_some_iff.mp hi).1
  exact ⟨i, (mem_deliveryOrder _ _ i).mpr hlt.le, dev, (liveDevice?_eq_some s i dev).mpr ⟨hi, hlive⟩, hacc⟩

/-! ## A MALFORMED word no device accepts -/

/-- A message no live device accepts: the listener hears it, and each live device is reset if it carries START
(R92). -/
theorem deliver_unmatched_heard (s : State) (m : BusMessage) (hab : s.aborted = none) (hnone : noMatch s m.address) :
    s.deliver m =
      { ({ s with ab := m.ab } : State).listenOut m with
        devices := if m.conditions.start then
            s.devices.map (Device.heard 0 DevState.protocolReset DevState.protocolReset) else s.devices } := by
  have hans : Answers s m (fun dev => if m.conditions.start then dev.st.reset else dev.st) (fun _ => false) :=
    fun dev hmem hlive env _ => respond_unmatched env m dev (hnone dev hmem hlive)
  have hdevices : s.devices.map (Device.took fun dev => if m.conditions.start then dev.st.reset else dev.st) =
      if m.conditions.start then s.devices.map (Device.heard 0 DevState.protocolReset DevState.protocolReset)
      else s.devices := by
    split
    · exact List.map_congr_left fun dev _ => by simp [Device.took, Device.heard, reset_eq_protocolReset]
    · exact (List.map_congr_left fun dev _ => by simp [Device.took]).trans (List.map_id _)
  have htrace : s.trace ++ List.replicate (s.devices.countP fun dev => dev.live && false) (.busIn (ackWord m.ab)) =
      (({ s with ab := m.ab } : State).listenOut m).trace := by simp
  rw [deliver_answers s m _ _ hab hans, hdevices, htrace]

/-! ## The step -/

/-- What the listener makes of a word, written out by the word's bits (R261, R262, R264, R265). -/
theorem listenOut_decodeMessage (s : State) (w : BusWord) :
    s.listenOut (decodeMessage w) =
      if w.getLsbD 8 then
        { s with openTx := txStart s.openTx (decodeMessage w) }
      else if w.getLsbD 9 then
        { s with openTx := none, finished := txFinish s.openTx s.finished,
                 calls := txCall s.openTx s.onComplete s.calls }
      else if w.getLsbD 12 then { s with openTx := heardByte s.openTx (w.extractLsb' 24 8) }
      else s := rfl

/-- The listener reads nothing of the move that brings the word. -/
theorem listenOut_placed (s : State) (m : BusMessage) (inbox : List HostEvent) (order : List Nat) (focus : Nat)
    (ab : Byte) :
    ({ s with inbox := inbox, order := order, focus := focus, ab := ab } : State).listenOut m =
      { s.listenOut m with inbox := inbox, order := order, focus := focus, ab := ab } := by
  unfold State.listenOut
  (repeat' split) <;> rfl

theorem step_busOut (s : State) (w : BusWord) (order : List Nat) (focus : Nat) (rest : List HostEvent)
    (hab : s.aborted = none) (hin : s.inbox = .operation order focus (.busOut w) :: rest) :
    step s = .next (({ s with inbox := rest, order := order, focus := focus } : State).deliver (decodeMessage w)) := by
  rw [step_cons s _ rest hin]
  exact (run_busOut _ w).trans (unlessAborted_of_none _ _ hab)

/-- Settles O27: the delivery ends at a device that accepts the word, or reaches the listener and resets. -/
theorem malformedMessages : Obligations.MalformedMessages := by
  intro s w order focus rest hab hin hmalformed dir hdir heard hheard
  have hkind : (decodeMessage w).kind = .malformed := (decode_busOut_iff w .malformed).mp hmalformed
  have hlistened : heard = s.listenOut (decodeMessage w) := by
    rw [hheard, hdir, listenOut_decodeMessage]
    cases s.openTx <;> cases s.onComplete <;> rfl
  rw [step_busOut s w order focus rest hab hin]
  refine ⟨fun hmatch => ?_, fun hnone => ?_⟩
  · obtain ⟨k, dev, hend⟩ := deliver_malformed_matched
      { s with inbox := rest, order := order, focus := focus } (decodeMessage w) hab hkind hmatch
    refine ⟨_, k, dev, rfl, hend.live, hend.accepts, hend.aborted, hend.device, hend.trace, hend.pending, hend.dbglog,
      ?_⟩
    have hboth := hend.transcript
    rw [listenOut_transcript s { s with inbox := rest, order := order, focus := focus } _ rfl rfl, ← hlistened] at hboth
    simpa [State.transcript] using hboth
  · rw [deliver_unmatched_heard { s with inbox := rest, order := order, focus := focus } _ hab hnone, hlistened]
    exact congrArg (fun t : State => Host.Outcome.next { t with
      devices := if w.getLsbD 8 then s.devices.map (Device.heard 0 DevState.protocolReset DevState.protocolReset)
        else s.devices }) (listenOut_placed s (decodeMessage w) rest order focus (decodeMessage w).ab)

end Sys2Proof.Machine
end

section
/-! PROOFS. PRINT pixel by pixel (R228 to R230), and the harness's key calls and due releases as raw key events (R68,
R180, R184). -/

namespace Sys2Proof.Machine

/-! ## PRINT -/

/-- A pixel after painting: the rectangle's own inside it, the one before elsewhere. -/
theorem pixelAt_paint (px : List (List Bool)) (x0 y0 w h Y X : Nat) (f : Nat → Nat → Bool) (hY : Y < px.length)
    (hX : X < (px[Y]).length) :
    pixelAt (paint px x0 y0 w h f) Y X =
      if x0 ≤ X ∧ X < x0 + w ∧ y0 ≤ Y ∧ Y < y0 + h then f (Y - y0) (X - x0) else pixelAt px Y X := by
  by_cases hrow : y0 ≤ Y ∧ Y < y0 + h
  · by_cases hcol : x0 ≤ X ∧ X < x0 + w
    · simp [pixelAt, paint, hY, hX, hrow, hcol]
    · simp [pixelAt, paint, hY, hX, hrow, hcol]
  · simp [pixelAt, paint, hY, hrow]

/-- The text cell at the cursor written, as a row replaced (R229). -/
theorem textPut_text (cfg : Config) (d : Display) (c : Byte) (hlen : d.text.length = textRows cfg) :
    d.textPut cfg c = { d with
      text := if d.cy / cfg.glyphH < textRows cfg ∧ d.cx / cfg.glyphW < textCols cfg
        then d.text.set (d.cy / cfg.glyphH) ((d.text.getD (d.cy / cfg.glyphH) []).set (d.cx / cfg.glyphW) c)
        else d.text } := by
  unfold Display.textPut
  dsimp only
  split
  · rename_i hcell
    have hr : d.cy / cfg.glyphH < d.text.length := hlen.symm ▸ hcell.1
    rw [List.modify_eq_set_getElem?, List.getElem?_eq_getElem hr, List.getD_eq_getElem _ _ hr]
    rfl
  · rfl

/-- The cursor moves on by one glyph place (R230). -/
theorem advance_eq (cfg : Config) (d : Display) :
    d.advance cfg = { d with
      cx := if cfg.dispW < d.cx + d.gw cfg + d.gw cfg then 0 else d.cx + d.gw cfg
      cy := if cfg.dispW < d.cx + d.gw cfg + d.gw cfg then
          (if cfg.dispH < d.cy + d.gh cfg + d.gh cfg then 0 else d.cy + d.gh cfg) else d.cy } := by
  unfold Display.advance
  dsimp only
  split <;> rfl

/-- The glyph drawn, the character recorded, the cursor moved on (R228): each leaves what the others read. -/
theorem print_eq (cfg : Config) (d : Display) (c : Byte) (hlen : d.text.length = textRows cfg) :
    d.print cfg c = { d with
      px := paint d.px d.cx d.cy (d.gw cfg) (d.gh cfg) (fun dy dx => Config.font c (dy / d.magY) (dx / d.magX))
      text := if d.cy / cfg.glyphH < textRows cfg ∧ d.cx / cfg.glyphW < textCols cfg
        then d.text.set (d.cy / cfg.glyphH) ((d.text.getD (d.cy / cfg.glyphH) []).set (d.cx / cfg.glyphW) c)
        else d.text
      cx := if cfg.dispW < d.cx + d.gw cfg + d.gw cfg then 0 else d.cx + d.gw cfg
      cy := if cfg.dispW < d.cx + d.gw cfg + d.gw cfg then
          (if cfg.dispH < d.cy + d.gh cfg + d.gh cfg then 0 else d.cy + d.gh cfg) else d.cy } := by
  rw [Display.print, textPut_text cfg (d.drawGlyph cfg c) c hlen, advance_eq]
  rfl

theorem print_onScreen (i : Instr) (c : Byte) (h : printByte? i = some c) :
    Instr.onScreen? i = some fun env d => (d.print env.cfg c, []) := by
  cases i <;> cases h <;> rfl

/-- Settles O34: the glyph, the text cell and the cursor, each by its own rule. -/
theorem printDrawsItsGlyph : Obligations.PrintDrawsItsGlyph := by
  rintro s dev d i c _ _ ⟨hab, hlive⟩ hst hok hbyte rfl rfl
  obtain ⟨hscreen, -⟩ := (displayOk_iff _ d).mp hok
  obtain ⟨hlen, hrows⟩ := hscreen.px
  obtain ⟨htext, -⟩ := hscreen.text
  have hsize := paint_size d.px d.cx d.cy (d.gw s.cfg) (d.gh s.cfg) _ _
    (fun dy dx => Config.font c (dy / d.magY) (dx / d.magX)) hscreen.px
  refine ⟨_, ?_, hsize.1, hsize.2, fun Y hY X hX => ?_⟩
  · rw [exec_onScreen i _ s (print_onScreen i c hbyte), unlessAborted_of_none s _ hab,
      onDisplay_focused s dev d _ hlive hst, env_cfg, print_eq s.cfg d c htext]
    rfl
  · have hY' : Y < d.px.length := hlen.symm ▸ hY
    exact pixelAt_paint d.px _ _ _ _ Y X _ hY' ((hrows _ (List.getElem_mem hY')).symm ▸ hX)

/-! ## Operations on a keypad -/

theorem onKeypad_live (s : State) (k : Nat) (dev : Device) (d : Keypad) (f : Env → Keypad → Keypad × List Effect)
    (hlive : liveAt s k dev) (hst : dev.st = .keypad d) :
    s.onKeypad k f = s.react k dev (.done (.keypad (f s.env d).1) (f s.env d).2) := by
  simp only [State.onKeypad, show s.liveDevice? k = some dev from hlive, hst]

/-- Only what the operation does to a keypad at this state counts. -/
theorem onKeypad_congr (s : State) (k : Nat) (f g : Env → Keypad → Keypad × List Effect)
    (h : ∀ d, f s.env d = g s.env d) : s.onKeypad k f = s.onKeypad k g := by
  simp only [State.onKeypad, h]

/-- An operation that changes no keypad changes nothing. -/
theorem onKeypad_refused (s : State) (k : Nat) (f : Env → Keypad → Keypad × List Effect)
    (h : ∀ d, f s.env d = (d, [])) : s.onKeypad k f = s := by
  rcases onKeypad_cases s k f with hsame | ⟨dev, d, hlive, hst, hreact⟩
  · exact hsame
  · rw [hreact, h d, ← hst]
    exact withDevice_same s k dev hlive

theorem step_addKeyEvent (s : State) (k : Nat) (press : Bool) (row col : Nat) (rest : List HostEvent)
    (hab : s.aborted = none) (hin : s.inbox = .addKeyEvent k press row col :: rest) :
    step s = .next (({ s with inbox := rest } : State).onKeypad k fun env d => d.addEvent env.cfg press row col) := by
  rw [step_cons s _ rest hin]
  exact unlessAborted_of_none { s with inbox := rest }
    (fun s => s.onKeypad k fun env d => d.addEvent env.cfg press row col) hab

theorem step_addKeyRawEvent (s : State) (k : Nat) (b : Byte) (rest : List HostEvent) (hab : s.aborted = none) :
    step { s with inbox := .addKeyRawEvent k b :: rest } =
      .next (({ s with inbox := rest } : State).onKeypad k fun _ d => d.addRawEvent b) :=
  unlessAborted_of_none { s with inbox := rest } (fun s => s.onKeypad k fun _ d => d.addRawEvent b) hab

/-! ## A due release (R184, R274) -/

/-- The step that fires an action that may fire. -/
theorem step_fire_due (s : State) (act : PendingAction) (rest : List HostEvent) (hab : s.aborted = none)
    (hin : s.inbox = .fire act.id :: rest) (hfind : s.pending.find? (fun x => x.id == act.id) = some act)
    (hdue : act.fireAt ≤ s.now) (hfirst : ∀ x ∈ s.pending, act.fireAt ≤ x.fireAt) :
    step s = .next ((({ s with inbox := rest } : State).takeAction act).callback act) := by
  have hmay : ({ s with inbox := rest } : State).mayFire act = true := by
    simpa [State.mayFire, hdue] using hfirst
  rw [step_cons s _ rest hin]
  refine (unlessAborted_of_none { s with inbox := rest } (fun s => s.fire act.id) hab).trans ?_
  rw [State.fire, show ({ s with inbox := rest } : State).pending = s.pending from rfl, hfind]
  simp only [if_pos hmay]

theorem callback_release (s : State) (act : PendingAction) (dev : Device) (d : Keypad) (code : Nat)
    (hpayload : act.payload = .keyRelease code) (hlive : liveAt s act.owner dev) (hst : dev.st = .keypad d) :
    s.callback act =
      s.react act.owner dev (.done (.keypad (d.releaseFire code).1) (d.releaseFire code).2) := by
  simp only [State.callback, show s.liveDevice? act.owner = some dev from hlive, hpayload, hst]

/-- A reaction of a device replaces whatever state it was put in before. -/
theorem react_withDevice (s : State) (k : Nat) (dev : Device) (st st' : DevState) (es : List Effect) :
    (s.withDevice k dev st).react k { dev with st := st } (.done st' es) = s.react k dev (.done st' es) := by
  have hset : (s.withDevice k dev st).setDevice k { dev with st := st' } = s.setDevice k { dev with st := st' } := by
    simp [State.setDevice, State.withDevice]
  rw [react_done, react_done, ← hset]

theorem liveAt_withDevice (s : State) (k : Nat) (dev : Device) (st : DevState) (h : liveAt s k dev) :
    liveAt (s.withDevice k dev st) k { dev with st := st } := by
  obtain ⟨hdev, hlive⟩ := (liveDevice?_eq_some s k dev).mp h
  have hlt := (List.getElem?_eq_some_iff.mp hdev).1
  exact (liveDevice?_eq_some _ _ _).mpr ⟨by simp [State.withDevice, hlt], hlive⟩

/-- The release's raw event: the pending release is forgotten, then the code is queued with bit 7 clear (R184). -/
theorem releaseFire_eq (d : Keypad) (code : Nat) :
    d.releaseFire code = Keypad.addRawEvent
      { d with pendingRelease := d.pendingRelease.filter (fun e => e.1 != code) } (BitVec.ofNat 8 code) := by
  have hbyte : keyEventByte false code = BitVec.ofNat 8 code := by simp [keyEventByte]
  rw [Keypad.releaseFire, hbyte]
  rfl

theorem step_fire_release (s : State) (dev : Device) (d : Keypad) (act : PendingAction) (code : Nat)
    (rest : List HostEvent) (hab : s.aborted = none) (hin : s.inbox = .fire act.id :: rest)
    (hfind : s.pending.find? (fun x => x.id == act.id) = some act) (hdue : act.fireAt ≤ s.now)
    (hfirst : ∀ x ∈ s.pending, act.fireAt ≤ x.fireAt) (hpayload : act.payload = .keyRelease code)
    (honce : act.periodic = none) (hlive : liveAt s act.owner dev) (hst : dev.st = .keypad d) :
    step s = step { s.withDevice act.owner dev
        (.keypad { d with pendingRelease := d.pendingRelease.filter (fun e => e.1 != code) }) with
      inbox := .addKeyRawEvent act.owner (BitVec.ofNat 8 code) :: rest
      pending := s.pending.filter (fun x => x.id != act.id) } := by
  have htaken : ({ s with inbox := rest } : State).takeAction act =
      { s with inbox := rest, pending := s.pending.filter (fun x => x.id != act.id) } := by
    simp only [State.takeAction, afterFiring, honce]
  have hlive' : liveAt { s with inbox := rest, pending := s.pending.filter (fun x => x.id != act.id) } act.owner dev :=
    hlive
  have hraw := step_addKeyRawEvent { s.withDevice act.owner dev
      (.keypad { d with pendingRelease := d.pendingRelease.filter (fun e => e.1 != code) }) with
    pending := s.pending.filter (fun x => x.id != act.id) } act.owner (BitVec.ofNat 8 code) rest hab
  rw [step_fire_due s act rest hab hin hfind hdue hfirst, htaken, callback_release _ act dev d code hpayload hlive' hst,
    releaseFire_eq]
  refine (hraw.trans (congrArg Host.Outcome.next ?_)).symm
  exact (onKeypad_live _ _ _ _ _ (liveAt_withDevice _ _ dev _ hlive') rfl).trans (react_withDevice _ _ dev _ _ _)

/-! ## Key event bytes (R68) -/

theorem keyEventByte_fields : ∀ press : Bool, ∀ code < 128,
    keyEventCode (keyEventByte press code) = code ∧ keyEventPressed (keyEventByte press code) = press := by
  decide

theorem decodeKeyEvent_keyEventByte (press : Bool) (row col : Nat) (hcol : col < 10) (hcode : keyCode row col ≤ 127) :
    decodeKeyEvent (keyEventByte press (keyCode row col)) = some { pressed := press, row := row, col := col } := by
  obtain ⟨hread, hpressed⟩ := keyEventByte_fields press (keyCode row col) (by omega)
  have hrow : keyRow (keyCode row col) = row := by rw [keyRow, keyCode]; omega
  have hcol' : keyCol (keyCode row col) = col := by rw [keyCol, keyCode]; omega
  have hevent : keyCode row col ≠ 0 := by rw [keyCode]; omega
  rw [decodeKeyEvent, hread, if_neg hevent, hpressed, hrow, hcol']

/-- Settles O50: the calls, the due release, and the byte's fields. -/
theorem keyCallsBecomeRawEvents : Obligations.KeyCallsBecomeRawEvents := by
  refine ⟨fun s k press row col rest hab hin => ?_, step_fire_release, decodeKeyEvent_keyEventByte, by decide, by decide⟩
  have hexists (cfg : Config) : keyExists cfg row col = true ↔ row < cfg.kpRows ∧ col < cfg.kpCols := by
    simp [keyExists]
  rw [step_addKeyEvent s k press row col rest hab hin]
  refine ⟨fun hin_bounds => ?_, fun hout => ?_⟩
  · refine Eq.trans ?_ (step_addKeyRawEvent s k _ rest hab).symm
    exact congrArg _ (onKeypad_congr _ k _ _ fun d => if_pos ((hexists s.cfg).mpr hin_bounds))
  · exact congrArg _ (onKeypad_refused _ k _ fun d => if_neg ((hexists s.cfg).not.mpr hout))

end Sys2Proof.Machine
end

section
/-! PROOFS. Whole transactions with an EEPROM (R78, R161 to R167, R170). -/

namespace Sys2Proof.Machine

/-! ## A message at the one device it addresses -/

/-- One position of a list is the only one that counts. -/
theorem countP_eq_one_of_unique {α : Type} (p : α → Bool) (l : List α) (k : Nat) (x : α) (hx : l[k]? = some x)
    (hp : p x = true) (hother : ∀ j y, j ≠ k → l[j]? = some y → p y = false) : l.countP p = 1 := by
  obtain ⟨hk, rfl⟩ := List.getElem?_eq_some_iff.mp hx
  have hbefore : (l.take k).countP p = 0 := List.countP_eq_zero.mpr fun y hy => by
    obtain ⟨j, hj, rfl⟩ := List.mem_take_iff_getElem.mp hy
    have := hother j _ (by omega) (List.getElem?_eq_getElem (by omega))
    simp [this]
  have hafter : (l.drop (k + 1)).countP p = 0 := List.countP_eq_zero.mpr fun y hy => by
    obtain ⟨j, hj, rfl⟩ := List.mem_drop_iff_getElem.mp hy
    have := hother (k + 1 + j) _ (by omega) (List.getElem?_eq_getElem (by omega))
    simp [this]
  rw [← List.take_append_drop k l, List.drop_eq_getElem_cons hk, List.countP_append, List.countP_cons, hbefore, hafter,
    if_pos hp]

section
variable {s : State} {k : Nat} {dev : Device} {a : BusAddress}

theorem addressed_device (h : addressed s k dev a) : s.devices[k]? = some dev ∧ dev.live = true := by
  obtain ⟨-, hlive, -, -⟩ := h
  exact (liveDevice?_eq_some s k dev).mp hlive

/-- A live device that accepts the address is the addressed one. -/
theorem addressed_unique (h : addressed s k dev a) (j : Nat) (d : Device) (hd : s.devices[j]? = some d)
    (hlive : d.live = true) (hacc : d.accepts a = true) : j = k ∧ d = dev := by
  obtain ⟨-, -, -, hother⟩ := id h
  obtain ⟨hlt, rfl⟩ := List.getElem?_eq_some_iff.mp hd
  by_cases hjk : j = k
  · subst hjk
    exact ⟨rfl, Option.some.inj (hd.symm.trans (addressed_device h).1)⟩
  · exact absurd hacc (by simp [hother j hlt hjk hlive])

/-- The device stays the addressed one as long as no device changes its address or its life. -/
theorem addressed_of_devices (h : addressed s k dev a) (t : State) (st : DevState) (hab : t.aborted = none)
    (hdev : t.devices[k]? = some { dev with st := st })
    (hother : ∀ (j : Nat) (d : Device), t.devices[j]? = some d →
      ∃ d' : Device, s.devices[j]? = some d' ∧ d.live = d'.live ∧ d.addrs = d'.addrs) :
    addressed t k { dev with st := st } a := by
  obtain ⟨-, -, hacc, hno⟩ := id h
  refine ⟨hab, (liveDevice?_eq_some _ _ _).mpr ⟨hdev, (addressed_device h).2⟩, hacc, fun j hj hjk hlive => ?_⟩
  obtain ⟨d', hd', hlive', haddrs⟩ := hother j _ (List.getElem?_eq_getElem hj)
  obtain ⟨hj', rfl⟩ := List.getElem?_eq_some_iff.mp hd'
  have hnot := hno j hj' hjk (hlive'.symm.trans hlive)
  unfold Device.accepts at *
  rw [haddrs, hnot]

end

/-! ## A transaction under way -/

/-- From `s` the run has come to `t`, where the addressed device is an EEPROM in state `d`, and the trace has got
`out` since. -/
structure InTransaction (s : State) (k : Nat) (dev : Device) (a : BusAddress) (d : Eeprom) (out : List OutputEvent)
    (t : State) : Prop where
  reached : addressed t k { dev with st := .eeprom d } a
  cfg     : t.cfg = s.cfg
  trace   : t.trace = s.trace ++ out

theorem InTransaction.start (s : State) (k : Nat) (dev : Device) (a : BusAddress) (d : Eeprom)
    (h : addressed s k dev a) (hst : dev.st = .eeprom d) : InTransaction s k dev a d [] s where
  reached := hst ▸ h
  cfg := rfl
  trace := (List.append_nil _).symm

section
variable {s t : State} {k : Nat} {dev : Device} {a : BusAddress} {d d' : Eeprom} {out : List OutputEvent}

theorem InTransaction.running (h : InTransaction s k dev a d out t) : t.aborted = none := h.reached.1

theorem InTransaction.device (h : InTransaction s k dev a d out t) :
    t.devices[k]? = some { dev with st := .eeprom d } := (addressed_device h.reached).1

/-- What a message leaves of a device: `st` where it is taken, otherwise at most the reset a START brings (R92). -/
def takenState (m : BusMessage) (st : DevState) (x : Device) : DevState :=
  if x.accepts m.address then st else if m.conditions.start then x.st.reset else x.st

/-- A message the EEPROM takes with an ACK or no reply: the other devices see at most a START that resets them. -/
theorem InTransaction.deliver (h : InTransaction s k dev a d out t) (m : BusMessage) (hm : m.address = a) (acks : Bool)
    (hr : ∀ env : Env, env.cfg = s.cfg → ({ dev with st := .eeprom d } : Device).respond env m =
      .done (.eeprom d') (if acks then [ackOnly m.ab] else [])) :
    InTransaction s k dev a d' (out ++ if acks then [ackEvent m.ab] else []) (t.deliver m) := by
  obtain ⟨hab, -, hacc, -⟩ := id h.reached
  obtain ⟨hdev, hlive⟩ := addressed_device h.reached
  subst hm
  have hans : Answers t m (takenState m (.eeprom d')) (fun x => x.accepts m.address && acks) := by
    intro x hx hxlive env hcfg
    obtain ⟨j, hj⟩ := List.mem_iff_getElem?.mp hx
    cases hxacc : x.accepts m.address with
    | true =>
      obtain ⟨-, rfl⟩ := addressed_unique h.reached j x hj hxlive hxacc
      simpa [takenState, hxacc] using hr env (hcfg.trans h.cfg)
    | false => simpa [takenState, hxacc] using respond_unmatched env m x hxacc
  have hcount : t.devices.countP (fun x => x.live && (x.accepts m.address && acks)) = if acks then 1 else 0 := by
    cases acks with
    | true =>
      refine countP_eq_one_of_unique _ _ k _ hdev (by simpa [hacc] using hlive) fun j y hjk hy => ?_
      by_contra hcon
      simp only [Bool.and_true, Bool.not_eq_false, Bool.and_eq_true] at hcon
      exact hjk (addressed_unique h.reached j y hy hcon.1 hcon.2).1
    | false => simp
  have hdeliver := deliver_answers t m _ _ hab hans
  refine ⟨addressed_of_devices h.reached _ (.eeprom d') ?_ ?_ fun j x hx => ?_, ?_, ?_⟩
  · rw [hdeliver]
    exact (listenOut_aborted _ m).trans hab
  · have htook : Device.took (takenState m (.eeprom d')) { dev with st := .eeprom d } = { dev with st := .eeprom d' } := by
      rw [Device.took, if_pos hlive]
      exact congrArg (fun st => ({ dev with st := st } : Device)) (if_pos hacc)
    rw [hdeliver, List.getElem?_map, hdev, Option.map_some, htook]
  · rw [hdeliver, List.getElem?_map] at hx
    obtain ⟨x', hx', rfl⟩ := Option.map_eq_some_iff.mp hx
    refine ⟨x', hx', ?_⟩
    unfold Device.took
    split <;> exact ⟨rfl, rfl⟩
  · rw [hdeliver]
    exact (listenOut_cfg _ m).trans h.cfg
  · rw [hdeliver, hcount, h.trace, List.append_assoc]
    cases acks <;> rfl

/-- START_W (R161). -/
theorem InTransaction.startW (h : InTransaction s k dev a d out t) (v : Byte) :
    ∃ u, exec (.startW v a) t = .next u ∧ InTransaction s k dev a { d with phase := .addressingHigh, addrHi := none }
      (out ++ [ackEvent (addressByte a false)]) u := by
  obtain ⟨hab, -, hacc, -⟩ := id h.reached
  exact ⟨_, unlessAborted_of_none t (fun t => t.deliver (startMessage v a false)) hab,
    h.deliver (startMessage v a false) rfl true fun env _ => respond_accepted env _ _ hacc⟩

/-- START_R once a pointer is there (R164). -/
theorem InTransaction.startR (h : InTransaction s k dev a d out t) (v : Byte) (p : Nat) (hptr : d.ptr = some p) :
    ∃ u, exec (.startR v a) t = .next u ∧ InTransaction s k dev a { d with phase := .dataRead, addrHi := none }
      (out ++ [ackEvent (addressByte a true)]) u := by
  obtain ⟨hab, -, hacc, -⟩ := id h.reached
  have hstart : d.onStartR (startMessage v a true) =
      .done { d with phase := .dataRead, addrHi := none } [ackOnly (addressByte a true)] := by
    simp only [Eeprom.onStartR, hptr]
    rfl
  exact ⟨_, unlessAborted_of_none t (fun t => t.deliver (startMessage v a true)) hab,
    h.deliver (startMessage v a true) rfl true fun env _ =>
      (respond_accepted env (startMessage v a true) _ hacc).trans (congrArg (Reaction.map DevState.eeprom) hstart)⟩

/-- A WRITE the EEPROM takes (R162, R163, R165). -/
theorem InTransaction.write (h : InTransaction s k dev a d out t) (v : Byte)
    (hwrite : d.onWrite s.cfg (writeMessage v a false) = .done d' [ackOnly (addressByte a false)]) :
    ∃ u, exec (.write v a false) t = .next u ∧ InTransaction s k dev a d'
      (out ++ [ackEvent (addressByte a false)]) u := by
  obtain ⟨hab, -, hacc, -⟩ := id h.reached
  refine ⟨_, exec_write_running t v a false hab, h.deliver (writeMessage v a false) rfl true fun env hcfg => ?_⟩
  rw [respond_eeprom_write env _ d v a false hacc rfl, hcfg, hwrite]
  rfl

/-- STOP: nothing is raised (R97, R167). -/
theorem InTransaction.stop (h : InTransaction s k dev a d out t) (v : Byte) (rnw : Bool) :
    ∃ u, exec (.stop v a rnw) t = .next u ∧
      InTransaction s k dev a { d with phase := .idle, addrHi := none, ptr := none } out u := by
  obtain ⟨hab, -, hacc, -⟩ := id h.reached
  have hstop := h.deliver (d' := { d with phase := .idle, addrHi := none, ptr := none }) (stopMessage v a rnw) rfl false
    fun env _ => respond_accepted env (stopMessage v a rnw) _ hacc
  exact ⟨_, unlessAborted_of_none t (fun t => t.deliver (stopMessage v a rnw)) hab, by simpa using hstop⟩

/-- READ below EE_SIZE (R166). -/
theorem InTransaction.read (h : InTransaction s k dev a d out t) (v : Byte) (p : Nat) (hphase : d.phase = .dataRead)
    (hptr : d.ptr = some p) (hp : p < s.cfg.eeSize) :
    ∃ u, exec (.read v a true) t = .next u ∧ InTransaction s k dev a { d with ptr := some (p + 1) }
      (out ++ [ackReadEvent (memRead d.buf p) (addressByte a true)]) u := by
  obtain ⟨hab, -, hacc, -⟩ := id h.reached
  have hread : d.onRead t.cfg (readMessage v a true) =
      .done { d with ptr := some (p + 1) } [ackWithByte (memRead d.buf p) (addressByte a true)] := by
    simp only [Eeprom.onRead, hphase, hptr, h.cfg, if_neg hp.not_ge]
    rfl
  have hanswered := deliver_read_answered t k _ v a true _ _ h.reached
    ((respond_accepted t.env (readMessage v a true) _ hacc).trans (congrArg (Reaction.map DevState.eeprom) hread))
  refine ⟨_, (exec_read_running t v a true hab).trans (congrArg _ hanswered), ?_, h.cfg, ?_⟩
  · have hlt := (List.getElem?_eq_some_iff.mp h.device).1
    refine addressed_of_devices h.reached _ _ hab (by simp [State.answered, hlt]) fun j x hx => ?_
    rw [State.answered, List.getElem?_set] at hx
    split at hx
    · rename_i hkj
      subst hkj
      obtain rfl := Option.some.inj hx
      exact ⟨_, h.device, rfl, rfl⟩
    · exact ⟨x, hx, rfl, rfl⟩
  · exact (congrArg (· ++ _) h.trace).trans (List.append_assoc _ _ _)

/-! ## Instructions one after the other -/

theorem runAll_cons (i : Instr) (is : List Instr) (s t : State) (h : exec i s = .next t) :
    runAll (i :: is) s = runAll is t := by
  rw [runAll, h]

/-- START_W and the two address bytes (R161, R162, R163). -/
theorem InTransaction.address (h : InTransaction s k dev a d [] t) (ds hi lo : Byte) (is : List Instr) :
    ∃ u, runAll (.startW ds a :: .write hi a false :: .write lo a false :: is) t = runAll is u ∧
      InTransaction s k dev a { d with phase := .dataWrite, addrHi := none, ptr := some (256 * hi.toNat + lo.toNat) }
        (List.replicate 3 (ackEvent (addressByte a false))) u := by
  obtain ⟨t1, hrun1, h1⟩ := h.startW ds
  obtain ⟨t2, hrun2, h2⟩ := h1.write hi (eeprom_onWrite_high _ (writeMessage hi a false) _ rfl)
  obtain ⟨t3, hrun3, h3⟩ := h2.write lo (eeprom_onWrite_low _ (writeMessage lo a false) _ hi rfl rfl)
  exact ⟨t3, by rw [runAll_cons _ _ _ _ hrun1, runAll_cons _ _ _ _ hrun2, runAll_cons _ _ _ _ hrun3], h3⟩

theorem eeprom_onWrite_store (cfg : Config) (m : BusMessage) (d : Eeprom) (p : Nat) (hphase : d.phase = .dataWrite)
    (hptr : d.ptr = some p) (hp : p < cfg.eeSize) :
    d.onWrite cfg m = .done { d with buf := memWrite d.buf p m.data, ptr := some (p + 1) } [ackOnly m.ab] := by
  simp only [Eeprom.onWrite, hphase, hptr, Eeprom.onStore, if_neg hp.not_ge]

/-- The bytes at `p` and on are those of `vs`, and the others are as before. -/
def Stored (p : Nat) (vs : List Byte) (before after : Memory) : Prop :=
  ∀ j, memRead after j = if p ≤ j ∧ j < p + vs.length then vs.getD (j - p) 0 else memRead before j

theorem Stored.nil (p : Nat) (m : Memory) : Stored p [] m m := fun j => by
  rw [if_neg (by simp)]

/-- One byte, then the rest from the next address on. -/
theorem Stored.cons (p : Nat) (v : Byte) (vs : List Byte) (before after : Memory)
    (h : Stored (p + 1) vs (memWrite before p v) after) : Stored p (v :: vs) before after := by
  intro j
  rw [h j, List.length_cons]
  rcases lt_trichotomy j p with hlt | rfl | hgt
  · rw [if_neg (by omega), if_neg (by omega), memRead_write_other _ _ _ _ hlt.ne]
  · rw [if_neg (by omega), if_pos (by omega), memRead_write_same, Nat.sub_self, List.getD_cons_zero]
  · rw [memRead_write_other _ _ _ _ hgt.ne', show j - p = j - (p + 1) + 1 by omega, List.getD_cons_succ]
    congr 1
    exact propext ⟨fun _ => by omega, fun _ => by omega⟩

/-- The data bytes of an EEWR (R165). -/
theorem InTransaction.store (vs : List Byte) (p : Nat) (h : InTransaction s k dev a d out t)
    (hphase : d.phase = .dataWrite) (hptr : d.ptr = some p) (hp : p + vs.length ≤ s.cfg.eeSize) (is : List Instr) :
    ∃ u d' out', runAll (vs.map (fun v => .write v a false) ++ is) t = runAll is u ∧
      InTransaction s k dev a d' out' u ∧ Stored p vs d.buf d'.buf := by
  induction vs generalizing t d out p with
  | nil => exact ⟨t, d, out, rfl, h, .nil p d.buf⟩
  | cons v vs ih =>
    rw [List.length_cons] at hp
    obtain ⟨t1, hrun1, h1⟩ := h.write v
      (eeprom_onWrite_store _ (writeMessage v a false) d p hphase hptr (by omega))
    obtain ⟨u, d', out', hrun, hu, hstored⟩ := ih (p + 1) h1 hphase rfl (by omega)
    exact ⟨u, d', out', (runAll_cons _ _ _ _ hrun1).trans hrun, hu, .cons p v vs _ _ hstored⟩

/-- The data bytes of an EERD (R166). -/
theorem InTransaction.reads (N : Nat) (p : Nat) (h : InTransaction s k dev a d out t) (hphase : d.phase = .dataRead)
    (hptr : d.ptr = some p) (hp : p + N ≤ s.cfg.eeSize) (v : Byte) :
    ∃ u, runAll (List.replicate N (.read v a true)) t = .next u ∧
      InTransaction s k dev a { d with ptr := some (p + N) }
        (out ++ (List.range N).map (fun j => ackReadEvent (memRead d.buf (p + j)) (addressByte a true))) u := by
  induction N generalizing t d out p with
  | zero => exact ⟨t, rfl, by simpa [← hptr] using h⟩
  | succ N ih =>
    obtain ⟨t1, hrun1, h1⟩ := h.read v p hphase hptr (by omega)
    obtain ⟨u, hrun, hu⟩ := ih (p + 1) h1 hphase rfl (by omega)
    refine ⟨u, (runAll_cons _ _ _ _ hrun1).trans hrun, ?_⟩
    simpa [List.range_succ_eq_map, Nat.add_assoc, Nat.add_comm 1, Function.comp_def] using hu

end

/-- Settles O58: the address, the bytes one by one, and the STOP. -/
theorem eepromWriteTransaction : Obligations.EepromWriteTransaction := by
  rintro s k dev d a hi lo A vs ds de haddr hst rfl hsize
  obtain ⟨t1, hrun1, h1⟩ := (InTransaction.start s k dev a d haddr hst).address ds hi lo
    (vs.map (fun v => .write v a false) ++ [.stop de a false])
  obtain ⟨t2, d2, out, hrun2, h2, hstored⟩ := h1.store vs _ rfl rfl hsize [.stop de a false]
  obtain ⟨t, hrun3, h3⟩ := h2.stop de false
  refine ⟨t, _, ?_, h3.running, h3.device, rfl, rfl, hstored⟩
  rw [hrun1, hrun2, runAll_cons _ _ _ _ hrun3, runAll]

/-- Settles O59: the address, START_R, the bytes one by one, and the STOP. -/
theorem eepromReadTransaction : Obligations.EepromReadTransaction := by
  rintro s k dev d a hi lo A N ds dr dd de haddr hst rfl hsize
  obtain ⟨t1, hrun1, h1⟩ := (InTransaction.start s k dev a d haddr hst).address ds hi lo
    (.startR dr a :: List.replicate N (.read dd a true))
  obtain ⟨t2, hrun2, h2⟩ := h1.startR dr _ rfl
  obtain ⟨t, hrun3, h3⟩ := h2.reads N _ rfl rfl hsize dd
  obtain ⟨u, hrun4, h4⟩ := h3.stop de true
  refine ⟨t, u, ?_, h3.running, h3.device, ?_, hrun4, h4.running, h4.trace.trans h3.trace.symm, h4.device⟩
  · rw [hrun1, runAll_cons _ _ _ _ hrun2, hrun3]
  · simpa [List.append_assoc] using h3.trace

end Sys2Proof.Machine
end

section
/-! PROOFS. START and STOP at every device, ACK_READ run alone, and the rows whose device is not in focus (R65, R91 to
R93, R97, R99, R100, R102, R111, R112, R117, R161, R164, R167, R221, R261, R263, R264). -/

namespace Sys2Proof.Machine

/-! ## START and STOP at the device that accepts them -/

/-- START_W is taken in every phase (R111, R161, R221). -/
theorem matched_startW (env : Env) (v : Byte) (a : BusAddress) (st : DevState) :
    st.matched env (startMessage v a false) = .done st.startedWrite [ackOnly (addressByte a false)] := by
  cases st <;> rfl

theorem onStartR_selected {δ : Type} (p : Plugs δ) (m : BusMessage) (d : δ) (h : (p.core d).sel.isSome = true) :
    p.onStartR m d = .done (p.toPhase d .dataRead) [ackOnly m.ab] := by
  obtain ⟨i, hsel⟩ := Option.isSome_iff_exists.mp h
  rw [Plugs.onStartR, hsel]

theorem eeprom_onStartR_selected (m : BusMessage) (d : Eeprom) (h : d.ptr.isSome = true) :
    d.onStartR m = .done { d with phase := .dataRead, addrHi := none } [ackOnly m.ab] := by
  obtain ⟨p, hptr⟩ := Option.isSome_iff_exists.mp h
  rw [Eeprom.onStartR, hptr]

/-- START_R is taken where something is selected, which the display never has (R112, R164, R221). -/
theorem matched_startR (env : Env) (v : Byte) (a : BusAddress) (st : DevState) (h : st.selected = true) :
    st.matched env (startMessage v a true) = .done st.startedRead [ackOnly (addressByte a true)] := by
  cases st with
  | rtc d => exact congrArg (Reaction.map DevState.rtc) (onStartR_selected (rtcPlugs env.cfg) _ d h)
  | keypad d => exact congrArg (Reaction.map DevState.keypad) (onStartR_selected kpPlugs _ d h)
  | led d => exact congrArg (Reaction.map DevState.led) (onStartR_selected ledPlugs _ d h)
  | eeprom d => exact congrArg (Reaction.map DevState.eeprom) (eeprom_onStartR_selected _ d h)
  | display d => cases h

/-- STOP is taken in every phase, without a reply: the reset that follows writes what the handler has written already
(R97, R117, R167). -/
theorem matched_stop (env : Env) (v : Byte) (a : BusAddress) (rnw : Bool) (st : DevState) :
    st.matched env (stopMessage v a rnw) = .done st.protocolReset [] := by
  cases st <;> rfl

/-! ## One message at every device -/

/-- A message every accepting device takes, each with an ACK or all without a reply: each of them changes by `f`, the
others at most by the reset a START brings (R92), and the listener hears it, whatever the order. -/
theorem deliver_heard (s : State) (m : BusMessage) (f : DevState → DevState) (acks : Bool) (hab : s.aborted = none)
    (hmatched : ∀ dev ∈ s.devices, dev.live = true → dev.accepts m.address = true → ∀ env : Env,
      dev.st.matched env m = .done (f dev.st) (if acks then [ackOnly m.ab] else [])) :
    s.deliver m =
      { ({ s with ab := m.ab } : State).listenOut m with
        devices := s.devices.map
          (Device.heard m.address f (if m.conditions.start then DevState.protocolReset else id))
        trace := s.trace ++ List.replicate (if acks then matchCount s m.address else 0) (ackEvent m.ab) } := by
  have hans : Answers s m
      (fun dev => if dev.accepts m.address then f dev.st
        else (if m.conditions.start then DevState.protocolReset else id) dev.st)
      (fun dev => dev.accepts m.address && acks) := by
    intro dev hmem hlive env _
    cases hacc : dev.accepts m.address with
    | true =>
      rw [respond_accepted env m dev hacc, hmatched dev hmem hlive hacc env]
      simp only [hacc, if_true, Bool.true_and]
    | false =>
      rw [respond_unmatched env m dev hacc, reset_eq_protocolReset]
      cases m.conditions.start <;> simp [hacc]
  have hcount : s.devices.countP (fun dev => dev.live && (dev.accepts m.address && acks)) =
      if acks then matchCount s m.address else 0 := by
    cases acks <;> simp [matchCount]
  rw [deliver_answers s m _ _ hab hans, hcount]
  rfl

/-- Settles O12: every device that accepts a START_W takes it. -/
theorem startWriteReachesEveryDevice : Obligations.StartWriteReachesEveryDevice := by
  intro s v a hab
  have hdeliver := deliver_heard s (startMessage v a false) DevState.startedWrite true hab
    fun dev _ _ _ env => matched_startW env v a dev.st
  refine (unlessAborted_of_none s (fun s => s.deliver (startMessage v a false)) hab).trans ?_
  rw [hdeliver]
  cases s.openTx <;> rfl

/-- Settles O13: every device that accepts the START_R has a selection, so it takes it. -/
theorem startReadReachesEveryDevice : Obligations.StartReadReachesEveryDevice := by
  intro s v a hab hselected
  have hdeliver := deliver_heard s (startMessage v a true) DevState.startedRead true hab
    fun dev hmem hlive hacc env => matched_startR env v a dev.st (hselected dev hmem hlive hacc)
  refine (unlessAborted_of_none s (fun s => s.deliver (startMessage v a true)) hab).trans ?_
  rw [hdeliver]
  cases s.openTx <;> rfl

/-- Settles O15: every device that accepts a STOP takes it without a reply, and the listener ends its transaction. -/
theorem stopReturnsAddressedDevicesToIdle : Obligations.StopReturnsAddressedDevicesToIdle := by
  intro s v a rnw hab
  have hdeliver := deliver_heard s (stopMessage v a rnw) DevState.protocolReset false hab
    fun dev _ _ _ env => matched_stop env v a rnw dev.st
  refine (unlessAborted_of_none s (fun s => s.deliver (stopMessage v a rnw)) hab).trans ?_
  rw [hdeliver, if_neg Bool.false_ne_true, List.replicate_zero, List.append_nil]
  cases s.openTx <;> cases s.onComplete <;> rfl

/-! ## ACK_READ run alone -/

theorem emitBusIn_ackReadWord (s : State) (b ab : Byte) :
    s.emitBusIn (ackReadWord b ab) =
      { s with trace := s.trace ++ [ackReadEvent b ab], openTx := txRead s.openTx b } := by
  rw [State.emitBusIn, txReply_ackReadWord]
  rfl

/-- Settles O29: the listener reads the byte back from the word. -/
theorem ackReadRaisesAckReadWord : Obligations.AckReadWord := by
  intro s b a rnw hab
  have hexec : exec (.ackRead b a rnw) s =
      s.unlessAborted (fun s => s.emitBusIn (ackReadWord b (addressByte a rnw))) := rfl
  rw [hexec, unlessAborted_of_none s _ hab, emitBusIn_ackReadWord]
  rfl

/-! ## Rows without their device in focus (log 9) -/

theorem onDisplay_unfocused (s : State) (f : Env → Display → Display × List Effect)
    (h : ∀ dev d, liveAt s s.focus dev → dev.st ≠ .display d) : s.onDisplay f = s :=
  (onDisplay_cases s f).resolve_right fun ⟨dev, d, hlive, hst, _⟩ => h dev d hlive hst

theorem ledSelectByte_unfocused (s : State) (b : Byte) (h : ∀ dev d, liveAt s s.focus dev → dev.st ≠ .led d) :
    s.ledSelectByte b = s :=
  (ledSelectByte_cases s b).resolve_right fun ⟨dev, d, hlive, hst, _⟩ => h dev d hlive hst

theorem eeAddressBytes_unfocused (s : State) (hi lo : Byte)
    (h : ∀ dev d, liveAt s s.focus dev → dev.st ≠ .eeprom d) : s.eeAddressBytes hi lo = s :=
  (eeAddressBytes_cases s hi lo).resolve_right fun ⟨dev, d, hlive, hst, _⟩ => h dev d hlive hst

/-- An instruction encoded as display bytes is an operation on the display in focus (R72). -/
theorem onScreen_of_stream (i : Instr) (bytes : List Byte) (h : encode i = .stream bytes) :
    ∃ f, Instr.onScreen? i = some f := by
  cases i <;> cases h <;> exact ⟨_, rfl⟩

/-- Settles O38: each row acts on a device of its kind in focus, or not at all. -/
theorem rowsWithoutTheirDeviceChangeNothing : Obligations.RowsWithoutTheirDeviceChangeNothing := by
  intro s i bytes hab
  refine ⟨fun hstream hno => ?_, fun ai reg hno => ?_, fun hi lo hno => ?_⟩
  · obtain ⟨f, hscreen⟩ := onScreen_of_stream i bytes hstream
    rw [exec_onScreen i f s hscreen, unlessAborted_of_none s _ hab, onDisplay_unfocused s f hno]
  · exact (unlessAborted_of_none s (fun s => s.ledSelectByte (ledctlByte ai reg)) hab).trans
      (congrArg _ (ledSelectByte_unfocused s _ hno))
  · exact (unlessAborted_of_none s (fun s => s.eeAddressBytes hi lo) hab).trans
      (congrArg _ (eeAddressBytes_unfocused s hi lo hno))

end Sys2Proof.Machine
end

section
/-! PROOFS. Data messages at the two-phase devices: the address byte, the register writes and reads, and the phases that
take neither (R110, R113 to R116, R118, R119, R168, R187 to R191, R208, R210, R221). -/

namespace Sys2Proof.Machine

/-! ## The two-phase machine, a phase at a time -/

section
variable {δ : Type} (p : Plugs δ) (m : BusMessage) (d : δ)

theorem onWrite_dataWrite (i : Nat) (hphase : (p.core d).phase = .dataWrite) (hsel : (p.core d).sel = some i) :
    p.onWrite m d =
      .done (p.stepSel (p.writeReg d i m.data).1 i) ((p.writeReg d i m.data).2 ++ [ackOnly m.ab]) := by
  rw [Plugs.onWrite, hphase]
  simp only [Plugs.onStore, hsel]

theorem onWrite_refused (hphase : (p.core d).phase = .idle ∨ (p.core d).phase = .dataRead) :
    p.onWrite m d = .raise .protocolDesync (.message m) := by
  rcases hphase with hphase | hphase <;> rw [Plugs.onWrite, hphase]

theorem onRead_dataRead (i : Nat) (hphase : (p.core d).phase = .dataRead) (hsel : (p.core d).sel = some i) :
    p.onRead m d = .done (p.stepSel (p.postRead d i) i) [ackWithByte (regRead (p.core d).regs i) m.ab] := by
  rw [Plugs.onRead, hphase, hsel]

theorem onRead_refused (hphase : (p.core d).phase ≠ .dataRead) :
    p.onRead m d = .raise .protocolDesync (.message m) := by
  unfold Plugs.onRead
  split
  case h_1 hread _ => exact absurd hread hphase
  case h_2 => rfl

/-- An address byte inside the file, where the selection is the default one (R110, R114). -/
theorem onWrite_selected (hselect : p.select = selectIndex p.core p.setCore p.last)
    (hphase : (p.core d).phase = .addressPhase) (hle : m.data.toNat ≤ p.last) :
    p.onWrite m d =
      .done (p.toPhase (p.setCore d { p.core d with sel := some m.data.toNat }) .dataWrite) [ackOnly m.ab] := by
  rw [Plugs.onWrite, hphase]
  simp only [Plugs.onAddress, hselect, selectIndex, if_neg hle.not_gt]

/-- An address byte beyond the file, where the selection is the default one (R110, R114). -/
theorem onWrite_outOfRange (hselect : p.select = selectIndex p.core p.setCore p.last)
    (hphase : (p.core d).phase = .addressPhase) (hlt : p.last < m.data.toNat) :
    p.onWrite m d = .raise .outOfRange (.index m.data.toNat) := by
  rw [Plugs.onWrite, hphase]
  simp only [Plugs.onAddress, hselect, selectIndex, if_pos hlt]

end

/-- The step of the LED driver's selection (R210). -/
theorem led_stepSel (d : Led) (i : Nat) (hsel : d.core.sel = some i) :
    ledPlugs.stepSel d i = { d with core := { d.core with sel := some (if d.autoinc then (i + 1) % 28 else i) } } := by
  unfold Plugs.stepSel
  cases hauto : d.autoinc
  · rw [if_neg (by simp [ledPlugs, hauto]), if_neg Bool.false_ne_true, ← hsel, ← hauto]
  · rw [if_pos (by simp [ledPlugs, hauto]), if_pos rfl, ← hauto]
    rfl

/-! ## A data message at the device that accepts it -/

section
variable (env : Env) (dev : Device) (v : Byte) (a : BusAddress) (rnw : Bool)

theorem respond_write (hacc : dev.accepts a = true) :
    dev.respond env (writeMessage v a rnw) = dev.st.handle env (writeMessage v a rnw) :=
  respond_accepted env (writeMessage v a rnw) dev hacc

theorem respond_read (hacc : dev.accepts a = true) :
    dev.respond env (readMessage v a rnw) = dev.st.handle env (readMessage v a rnw) :=
  respond_accepted env (readMessage v a rnw) dev hacc

theorem respond_rtc_write (d : Rtc) (hacc : dev.accepts a = true) (hst : dev.st = .rtc d) :
    dev.respond env (writeMessage v a rnw) = ((rtcPlugs env.cfg).onWrite (writeMessage v a rnw) d).map .rtc := by
  rw [respond_write env dev v a rnw hacc, hst]
  rfl

theorem respond_keypad_write (d : Keypad) (hacc : dev.accepts a = true) (hst : dev.st = .keypad d) :
    dev.respond env (writeMessage v a rnw) = (kpPlugs.onWrite (writeMessage v a rnw) d).map .keypad := by
  rw [respond_write env dev v a rnw hacc, hst]
  rfl

theorem respond_led_write (d : Led) (hacc : dev.accepts a = true) (hst : dev.st = .led d) :
    dev.respond env (writeMessage v a rnw) = (ledPlugs.onWrite (writeMessage v a rnw) d).map .led := by
  rw [respond_write env dev v a rnw hacc, hst]
  rfl

/-- The RTC stores the byte and steps (R115, R118, R130). -/
theorem respond_rtc_store (d : Rtc) (i : Nat) (hacc : dev.accepts a = true) (hst : dev.st = .rtc d)
    (hphase : d.core.phase = .dataWrite) (hsel : d.core.sel = some i) :
    dev.respond env (writeMessage v a rnw) = .done
      (.rtc { d with core := { d.core with regs := d.core.regs.set i v,
                                           sel := some ((i + 1) % (env.cfg.rtcLast + 1)) } })
      [ackOnly (addressByte a rnw)] := by
  rw [respond_rtc_write env dev v a rnw d hacc hst, onWrite_dataWrite _ _ d i hphase hsel]
  rfl

/-- The LED driver stores the byte and steps if it auto-increments (R208, R210). -/
theorem respond_led_store (d : Led) (i : Nat) (hacc : dev.accepts a = true) (hst : dev.st = .led d)
    (hphase : d.core.phase = .dataWrite) (hsel : d.core.sel = some i) :
    dev.respond env (writeMessage v a rnw) = .done
      (.led { d with core := { d.core with regs := d.core.regs.set i v,
                                           sel := some (if d.autoinc then (i + 1) % 28 else i) } })
      [ackOnly (addressByte a rnw)] := by
  have hstep := led_stepSel { d with core := { d.core with regs := d.core.regs.set i v } } i hsel
  rw [respond_led_write env dev v a rnw d hacc hst, onWrite_dataWrite _ _ d i hphase hsel]
  exact congrArg (fun d' => Reaction.done (DevState.led d') [ackOnly (addressByte a rnw)]) hstep

/-- The keypad's register write, and the step (R115, R118, R175). -/
theorem respond_keypad_store (d : Keypad) (i : Nat) (hacc : dev.accepts a = true) (hst : dev.st = .keypad d)
    (hphase : d.core.phase = .dataWrite) (hsel : d.core.sel = some i) :
    dev.respond env (writeMessage v a rnw) = .done
      (.keypad { (d.writeReg i v).1 with core := { (d.writeReg i v).1.core with sel := some ((i + 1) % 47) } })
      ((d.writeReg i v).2 ++ [ackOnly (addressByte a rnw)]) := by
  rw [respond_keypad_write env dev v a rnw d hacc hst, onWrite_dataWrite _ _ d i hphase hsel]
  rfl

/-- The RTC answers with the register and steps (R116, R118, R131). -/
theorem respond_rtc_read (d : Rtc) (i : Nat) (hacc : dev.accepts a = true) (hst : dev.st = .rtc d)
    (hphase : d.core.phase = .dataRead) (hsel : d.core.sel = some i) :
    dev.respond env (readMessage v a rnw) = .done
      (.rtc { d with core := { d.core with sel := some ((i + 1) % (env.cfg.rtcLast + 1)) } })
      [ackWithByte (regRead d.core.regs i) (addressByte a rnw)] := by
  have hread := onRead_dataRead (rtcPlugs env.cfg) (readMessage v a rnw) d i hphase hsel
  rw [respond_read env dev v a rnw hacc, hst]
  exact congrArg (Reaction.map DevState.rtc) hread

/-- The LED driver answers with the register and steps if it auto-increments (R209, R210). -/
theorem respond_led_read (d : Led) (i : Nat) (hacc : dev.accepts a = true) (hst : dev.st = .led d)
    (hphase : d.core.phase = .dataRead) (hsel : d.core.sel = some i) :
    dev.respond env (readMessage v a rnw) = .done
      (.led { d with core := { d.core with sel := some (if d.autoinc then (i + 1) % 28 else i) } })
      [ackWithByte (regRead d.core.regs i) (addressByte a rnw)] := by
  have hread := onRead_dataRead ledPlugs (readMessage v a rnw) d i hphase hsel
  rw [respond_read env dev v a rnw hacc, hst]
  exact (congrArg (Reaction.map DevState.led) hread).trans
    (congrArg (fun d' => Reaction.done (DevState.led d') [ackWithByte (regRead d.core.regs i) (addressByte a rnw)])
      (led_stepSel d i hsel))

end

/-! ## The address byte of the RTC and the keypad (R114) -/

/-- Settles O17: the default selection, inside the file and beyond it. -/
theorem registerSelectedByAddressByte : Obligations.RegisterSelectedByAddressByte := by
  constructor
  · intro s k dev d b a rnw haddr hst hphase
    obtain ⟨-, -, hacc, -⟩ := id haddr
    have hrespond := respond_rtc_write s.env dev b a rnw d hacc hst
    refine ⟨fun hle => ?_, fun hlt => ?_⟩
    · rw [onWrite_selected (rtcPlugs s.env.cfg) (writeMessage b a rnw) d (rtcPlugs_select _) hphase hle] at hrespond
      exact exec_write_acked s k dev b a rnw _ haddr hrespond
    · rw [onWrite_outOfRange (rtcPlugs s.env.cfg) (writeMessage b a rnw) d (rtcPlugs_select _) hphase hlt] at hrespond
      exact exec_write_raised s k dev b a rnw _ _ haddr hrespond
  · intro s k dev d b a rnw haddr hst hphase
    obtain ⟨-, -, hacc, -⟩ := id haddr
    have hrespond := respond_keypad_write s.env dev b a rnw d hacc hst
    refine ⟨fun hle => ?_, fun hlt => ?_⟩
    · rw [onWrite_selected kpPlugs (writeMessage b a rnw) d kpPlugs_select hphase hle] at hrespond
      exact exec_write_acked s k dev b a rnw _ haddr hrespond
    · rw [onWrite_outOfRange kpPlugs (writeMessage b a rnw) d kpPlugs_select hphase hlt] at hrespond
      exact exec_write_raised s k dev b a rnw _ _ haddr hrespond

/-! ## Registers of the RTC and the LED driver -/

/-- Settles O19: the store and the step of each device, acknowledged. -/
theorem plainRegisterWrites : Obligations.PlainRegisterWrites := by
  constructor
  · intro s k dev d v a rnw i haddr hst hphase hsel
    obtain ⟨-, -, hacc, -⟩ := id haddr
    exact exec_write_acked s k dev v a rnw _ haddr (respond_rtc_store s.env dev v a rnw d i hacc hst hphase hsel)
  · intro s k dev d v a rnw i haddr hst hphase hsel
    obtain ⟨-, -, hacc, -⟩ := id haddr
    exact exec_write_acked s k dev v a rnw _ haddr (respond_led_store s.env dev v a rnw d i hacc hst hphase hsel)

/-- A READ the addressed device answers, as a step. -/
theorem exec_read_answered (s : State) (k : Nat) (dev : Device) (v : Byte) (a : BusAddress) (rnw : Bool) (st : DevState)
    (b : Byte) (h : addressed s k dev a)
    (hr : dev.respond s.env (readMessage v a rnw) = .done st [ackWithByte b (addressByte a rnw)]) :
    exec (.read v a rnw) s = .next (s.answered k dev st b (addressByte a rnw)) := by
  obtain ⟨hab, -⟩ := id h
  rw [exec_read_running s v a rnw hab, deliver_read_answered s k dev v a rnw st b h hr]

/-- A READ the addressed device turns into an abort, as a step. -/
theorem exec_read_raised (s : State) (k : Nat) (dev : Device) (v : Byte) (a : BusAddress) (rnw : Bool) (c : Cause)
    (info : FaultInfo) (h : addressed s k dev a) (hr : dev.respond s.env (readMessage v a rnw) = .raise c info) :
    ∃ t, exec (.read v a rnw) s = .next t ∧ abortedAt s t k c info (addressByte a rnw) s.openTx := by
  obtain ⟨hab, -⟩ := id h
  exact ⟨_, exec_read_running s v a rnw hab, deliver_read_raised s k dev v a rnw c info h hr⟩

/-- Settles O22: the answer and the step of each device. -/
theorem plainRegisterReads : Obligations.PlainRegisterReads := by
  constructor
  · intro s k dev d v a rnw i haddr hst hphase hsel
    obtain ⟨-, -, hacc, -⟩ := id haddr
    exact exec_read_answered s k dev v a rnw _ _ haddr (respond_rtc_read s.env dev v a rnw d i hacc hst hphase hsel)
  · intro s k dev d v a rnw i haddr hst hphase hsel
    obtain ⟨-, -, hacc, -⟩ := id haddr
    exact exec_read_answered s k dev v a rnw _ _ haddr (respond_led_read s.env dev v a rnw d i hacc hst hphase hsel)

/-! ## Phases that cannot take the message -/

/-- A phase that cannot take a WRITE (R113, R168, R221). -/
theorem handle_write_refused (env : Env) (v : Byte) (a : BusAddress) (rnw : Bool) (st : DevState)
    (h : st.refusesWrite = true) :
    st.handle env (writeMessage v a rnw) = .raise .protocolDesync (.message (writeMessage v a rnw)) := by
  cases st with
  | rtc d => exact congrArg (Reaction.map DevState.rtc) (onWrite_refused (rtcPlugs env.cfg) _ d (of_decide_eq_true h))
  | keypad d => exact congrArg (Reaction.map DevState.keypad) (onWrite_refused kpPlugs _ d (of_decide_eq_true h))
  | led d => exact congrArg (Reaction.map DevState.led) (onWrite_refused ledPlugs _ d (of_decide_eq_true h))
  | eeprom d =>
    have hwrite : d.onWrite env.cfg (writeMessage v a rnw) =
        .raise .protocolDesync (.message (writeMessage v a rnw)) := by
      rcases of_decide_eq_true h with hphase | hphase <;> simp only [Eeprom.onWrite, hphase]
    exact congrArg (Reaction.map DevState.eeprom) hwrite
  | display d =>
    have hphase : d.phase = .idle := of_decide_eq_true h
    simp only [DevState.handle, Display.handle, BusMessage.kind, writeMessage, hphase, Reaction.map]

/-- A phase that cannot take a READ (R116, R168, R221). -/
theorem handle_read_refused (env : Env) (v : Byte) (a : BusAddress) (rnw : Bool) (st : DevState)
    (h : st.refusesRead = true) :
    st.handle env (readMessage v a rnw) = .raise .protocolDesync (.message (readMessage v a rnw)) := by
  cases st with
  | rtc d => exact congrArg (Reaction.map DevState.rtc) (onRead_refused (rtcPlugs env.cfg) _ d (of_decide_eq_true h))
  | keypad d => exact congrArg (Reaction.map DevState.keypad) (onRead_refused kpPlugs _ d (of_decide_eq_true h))
  | led d => exact congrArg (Reaction.map DevState.led) (onRead_refused ledPlugs _ d (of_decide_eq_true h))
  | eeprom d =>
    have hphase : d.phase ≠ .dataRead := of_decide_eq_true h
    have hread : d.onRead env.cfg (readMessage v a rnw) =
        .raise .protocolDesync (.message (readMessage v a rnw)) := by
      unfold Eeprom.onRead
      split
      case h_1 hread _ => exact absurd hread hphase
      case h_2 => rfl
    exact congrArg (Reaction.map DevState.eeprom) hread
  | display d => rfl

/-- Settles O26: the phase raises, and the delivery writes nothing else. -/
theorem messagesAPhaseCannotTake : Obligations.MessagesAPhaseCannotTake := by
  intro s k dev v a rnw haddr
  obtain ⟨-, -, hacc, -⟩ := id haddr
  refine ⟨fun hrefuse => ?_, fun hrefuse => ?_⟩
  · exact exec_write_raised s k dev v a rnw _ _ haddr
      ((respond_write s.env dev v a rnw hacc).trans (handle_write_refused s.env v a rnw dev.st hrefuse))
  · exact exec_read_raised s k dev v a rnw _ _ haddr
      ((respond_read s.env dev v a rnw hacc).trans (handle_read_refused s.env v a rnw dev.st hrefuse))

end Sys2Proof.Machine
end

section
/-! PROOFS. Register writes of the keypad, and runs of data bytes at the two-phase devices (R115, R118, R120, R175, R187
to R191, R210, R214). -/

namespace Sys2Proof.Machine

/-! ## The keypad's register write -/

/-- A register that is not the interrupt status: discarded for the count and the slots, stored otherwise (R189 to
R191). -/
theorem keypad_writeReg_of_ne (d : Keypad) (i : Nat) (v : Byte) (h : i ≠ kpIntStat) :
    d.writeReg i v =
      ({ d with core := { d.core with regs := if 3 ≤ i ∧ i ≤ 13 then d.core.regs else d.core.regs.set i v } }, []) := by
  have hkept : (i = kpKeyLckEc ∨ kpKeyEventA ≤ i ∧ i ≤ kpKeyEventA + 9) ↔ 3 ≤ i ∧ i ≤ 13 := by
    unfold kpKeyLckEc kpKeyEventA
    omega
  rw [Keypad.writeReg, if_neg h]
  simp only [hkept]
  split <;> rfl

/-- The interrupt status: an acknowledge (R188). -/
theorem keypad_writeReg_status (d : Keypad) (v : Byte) :
    d.writeReg kpIntStat v =
      ({ d with
         core := { d.core with regs := d.core.regs.set kpIntStat (regRead d.core.regs kpIntStat &&& ~~~v) }
         unacked := d.unacked &&& ~~~v
         intN := if d.unacked &&& ~~~v = 0 ∧ d.intN = false then true else d.intN },
       if d.unacked &&& ~~~v = 0 ∧ d.intN = false then [.pin .intN true] else []) := by
  rw [Keypad.writeReg, if_pos rfl]
  unfold Keypad.acknowledge andNot
  dsimp only [Keypad.withRegs]
  split <;> rfl

/-- The register write neither reads nor writes the selection. -/
theorem keypad_writeReg_sel (d : Keypad) (i : Nat) (v : Byte) (sel : Option Nat) :
    ({ d with core := { d.core with sel := sel } } : Keypad).writeReg i v =
      ({ (d.writeReg i v).1 with core := { (d.writeReg i v).1.core with sel := sel } }, (d.writeReg i v).2) := by
  by_cases h : i = kpIntStat
  · subst h
    rw [keypad_writeReg_status, keypad_writeReg_status]
  · rw [keypad_writeReg_of_ne _ _ _ h, keypad_writeReg_of_ne _ _ _ h]

/-- All the register write can ask for is the release of the interrupt line. -/
theorem keypad_writeReg_effects (d : Keypad) (i : Nat) (v : Byte) :
    ∃ rel : Bool, (d.writeReg i v).2 = if rel then [.pin .intN true] else [] := by
  by_cases h : i = kpIntStat
  · subst h
    exact ⟨decide (d.unacked &&& ~~~v = 0 ∧ d.intN = false), by simp [keypad_writeReg_status]⟩
  · exact ⟨false, by rw [keypad_writeReg_of_ne _ _ _ h]; rfl⟩

/-! ## A WRITE that can release the interrupt line -/

theorem foldl_perform_releasing (s : State) (k : Nat) (ab : Byte) (c : Prop) [Decidable c] :
    ((if c then [Effect.pin .intN true] else []) ++ [ackOnly ab]).foldl (State.perform k) s =
      { s with trace := s.trace ++ (if c then [.pin k .intN true] else []) ++ [ackEvent ab] } := by
  split <;> simp [State.perform, ackOnly, emitBusIn_ackWord, State.emitPin]

/-- A WRITE the addressed device takes, its ACK after the release of its interrupt line or alone: whatever the
order. -/
theorem deliver_write_releasing (s : State) (k : Nat) (dev : Device) (v : Byte) (a : BusAddress) (rnw : Bool)
    (st : DevState) (c : Prop) [Decidable c] (h : addressed s k dev a)
    (hr : dev.respond s.env (writeMessage v a rnw) =
      .done st ((if c then [.pin .intN true] else []) ++ [ackOnly (addressByte a rnw)])) :
    s.deliver (writeMessage v a rnw) =
      { s.wrote k dev st v (addressByte a rnw) with
        trace := s.trace ++ (if c then [.pin k .intN true] else []) ++ [ackEvent (addressByte a rnw)] } := by
  obtain ⟨hab, hlive, -, hother⟩ := id h
  have hlt : k < s.devices.length := (List.getElem?_eq_some_iff.mp (addressed_device h).1).1
  have hadapter (t : State) (hdevices : t.devices = s.devices) (henv : t.env = s.env) :
      t.adapter (writeMessage v a rnw) k =
        { t.setDevice k { dev with st := st } with
          trace := t.trace ++ (if c then [.pin k .intN true] else []) ++ [ackEvent (addressByte a rnw)] } := by
    have hlive' : liveAt t k dev := by
      unfold liveAt State.liveDevice? at *
      rwa [hdevices]
    rw [adapter_react t k dev _ hlive', henv, hr, react_done, foldl_perform_releasing]
    rfl
  rcases deliver_single s (writeMessage v a rnw) k hlt hab rfl hother with hfirst | hlast
  · rw [hfirst, hadapter { s with ab := (writeMessage v a rnw).ab } rfl rfl]
    have hlen : s.devices.length = (s.devices.set k { dev with st := st }).length := List.length_set.symm
    rw [hlen]
    exact subscriber_listener _ (writeMessage v a rnw) hab
  · rw [hlast, hadapter (({ s with ab := (writeMessage v a rnw).ab } : State).listenOut (writeMessage v a rnw)) rfl rfl]
    rfl

theorem exec_write_releasing (s : State) (k : Nat) (dev : Device) (v : Byte) (a : BusAddress) (rnw : Bool)
    (st : DevState) (c : Prop) [Decidable c] (h : addressed s k dev a)
    (hr : dev.respond s.env (writeMessage v a rnw) =
      .done st ((if c then [.pin .intN true] else []) ++ [ackOnly (addressByte a rnw)])) :
    exec (.write v a rnw) s = .next
      { s.wrote k dev st v (addressByte a rnw) with
        trace := s.trace ++ (if c then [.pin k .intN true] else []) ++ [ackEvent (addressByte a rnw)] } := by
  obtain ⟨hab, -⟩ := id h
  rw [exec_write_running s v a rnw hab, deliver_write_releasing s k dev v a rnw st c h hr]

/-- Settles O20: the plain and the discarded writes, and the acknowledge. -/
theorem keypadRegisterWrites : Obligations.KeypadRegisterWrites := by
  constructor
  · intro s k dev d v a rnw i haddr hst hphase hsel hi
    obtain ⟨-, -, hacc, -⟩ := id haddr
    have hrespond := respond_keypad_store s.env dev v a rnw d i hacc hst hphase hsel
    rw [keypad_writeReg_of_ne d i v hi] at hrespond
    exact exec_write_acked s k dev v a rnw _ haddr hrespond
  · intro s k dev d v a rnw haddr hst hphase hsel
    obtain ⟨-, -, hacc, -⟩ := id haddr
    have hrespond := respond_keypad_store s.env dev v a rnw d kpIntStat hacc hst hphase hsel
    rw [keypad_writeReg_status d v] at hrespond
    exact exec_write_releasing s k dev v a rnw _ _ haddr hrespond

/-! ## A run of WRITEs -/

/-- The events of `n` WRITEs that device `k` takes: an ACK each, and beside them the release of its interrupt line if
it may be released. -/
structure Replies (k : Nat) (ab : Byte) (mayRelease : Prop) (n : Nat) (l : List OutputEvent) : Prop where
  acks   : l.filter (fun e => e == ackEvent ab) = List.replicate n (ackEvent ab)
  others : ∀ e ∈ l, e = ackEvent ab ∨ mayRelease ∧ e = .pin k .intN true

theorem Replies.nil (k : Nat) (ab : Byte) (mayRelease : Prop) : Replies k ab mayRelease 0 [] where
  acks := rfl
  others := by simp

theorem Replies.concat {k : Nat} {ab : Byte} {mayRelease : Prop} {n : Nat} {l : List OutputEvent}
    (h : Replies k ab mayRelease n l) (rel : Bool) (hrel : rel = true → mayRelease) :
    Replies k ab mayRelease (n + 1) (l ++ (if rel then [.pin k .intN true] else []) ++ [ackEvent ab]) := by
  have hpin : (OutputEvent.pin k .intN true == ackEvent ab) = false := rfl
  refine ⟨?_, fun e he => ?_⟩
  · cases rel <;> simp [h.acks, hpin, List.replicate_succ']
  · rcases List.mem_append.mp he with he | he
    · rcases List.mem_append.mp he with he | he
      · exact h.others e he
      · cases rel with
        | false => cases he
        | true => exact .inr ⟨hrel rfl, List.mem_singleton.mp he⟩
    · exact .inl (List.mem_singleton.mp he)

/-- A device without an interrupt line raises its ACKs only. -/
theorem Replies.eq_replicate {k : Nat} {ab : Byte} {n : Nat} {l : List OutputEvent} (h : Replies k ab False n l) :
    l = List.replicate n (ackEvent ab) := by
  have hall : l.filter (fun e => e == ackEvent ab) = l :=
    List.filter_eq_self.mpr fun e he => by simpa using h.others e he
  exact hall.symm.trans h.acks

/-- From `s` WRITEs have come to `t`: of the devices only the addressed one has changed, to state `st`, and the trace
has got `out` since. -/
structure Storing (s : State) (k : Nat) (dev : Device) (st : DevState) (out : List OutputEvent) (t : State) :
    Prop where
  running : t.aborted = none
  cfg     : t.cfg = s.cfg
  devices : t.devices = s.devices.set k { dev with st := st }
  trace   : t.trace = s.trace ++ out

section
variable {s t : State} {k : Nat} {dev : Device} {a : BusAddress}

theorem Storing.start (h : addressed s k dev a) : Storing s k dev dev.st [] s where
  running := h.1
  cfg := rfl
  devices := (congrArg State.devices (setDevice_same s k dev (addressed_device h).1)).symm
  trace := (List.append_nil _).symm

theorem Storing.stays_addressed {st : DevState} {out : List OutputEvent} (hs : Storing s k dev st out t)
    (h : addressed s k dev a) : addressed t k { dev with st := st } a := by
  have hdev := (addressed_device h).1
  have hlt := (List.getElem?_eq_some_iff.mp hdev).1
  refine addressed_of_devices h t st hs.running (by simp [hs.devices, hlt]) fun j x hx => ?_
  rw [hs.devices, List.getElem?_set] at hx
  split at hx
  case isTrue hkj =>
    subst hkj
    obtain rfl := Option.some.inj hx
    exact ⟨dev, hdev, rfl, rfl⟩
  case isFalse => exact ⟨x, hx, rfl, rfl⟩

/-- One more WRITE the addressed device takes. -/
theorem Storing.write {st st' : DevState} {out : List OutputEvent} (hs : Storing s k dev st out t)
    (h : addressed s k dev a) (v : Byte) (rel : Bool)
    (hrespond : ({ dev with st := st } : Device).respond t.env (writeMessage v a false) =
      .done st' ((if rel then [.pin .intN true] else []) ++ [ackOnly (addressByte a false)])) :
    ∃ u, exec (.write v a false) t = .next u ∧
      Storing s k dev st' (out ++ (if rel then [.pin k .intN true] else []) ++ [ackEvent (addressByte a false)]) u :=
  ⟨_, exec_write_releasing t k _ v a false st' (rel = true) (hs.stays_addressed h) hrespond,
    { running := hs.running
      cfg := hs.cfg
      devices := by simp [State.wrote, hs.devices]
      trace := by simp [hs.trace] }⟩

theorem runAll_append (is js : List Instr) (s t : State) (h : runAll is s = .next t) :
    runAll (is ++ js) s = runAll js t := by
  induction is generalizing s with
  | nil =>
    cases h
    rfl
  | cons i is ih =>
    rw [runAll] at h
    split at h
    case h_1 u hexec =>
      rw [List.cons_append, runAll_cons i _ s u hexec]
      exact ih u h
    all_goals cases h

/-- WRITEs one after the other, where the device that has taken the bytes `vs` is in state `after vs`. -/
theorem runAll_writes (after : List Byte → DevState) (mayRelease : Prop) (h : addressed s k dev a)
    (hstart : after [] = dev.st)
    (hwrite : ∀ (vs : List Byte) (v : Byte) (env : Env), env.cfg = s.cfg → ∃ rel : Bool, (rel = true → mayRelease) ∧
      ({ dev with st := after vs } : Device).respond env (writeMessage v a false) =
        .done (after (vs ++ [v])) ((if rel then [.pin .intN true] else []) ++ [ackOnly (addressByte a false)]))
    (vs : List Byte) :
    ∃ t out, runAll (vs.map (fun v => .write v a false)) s = .next t ∧ Storing s k dev (after vs) out t ∧
      Replies k (addressByte a false) mayRelease vs.length out := by
  induction vs using List.reverseRecOn with
  | nil => exact ⟨s, [], rfl, hstart ▸ .start h, .nil _ _ _⟩
  | append_singleton vs v ih =>
    obtain ⟨t, out, hrun, hs, hreplies⟩ := ih
    obtain ⟨rel, hrel, hrespond⟩ := hwrite vs v t.env hs.cfg
    obtain ⟨u, hexec, hu⟩ := hs.write h v rel hrespond
    refine ⟨u, _, ?_, hu, List.length_append ▸ hreplies.concat rel hrel⟩
    rw [List.map_append, runAll_append _ _ s t hrun]
    exact runAll_cons _ [] t u hexec

end

/-! ## The registers a run of WRITEs stores -/

theorem foldl_zipIdx_concat {α β : Type} (f : β → α × Nat → β) (b : β) (vs : List α) (v : α) :
    (vs ++ [v]).zipIdx.foldl f b = f (vs.zipIdx.foldl f b) (v, vs.length) := by
  simp [List.zipIdx_append]

/-- The core after the bytes `vs` stored from register `R` on, in a file of `size` registers. -/
def RegCore.storedFrom (size R : Nat) (c : RegCore) (vs : List Byte) : RegCore :=
  { c with regs := vs.zipIdx.foldl (fun regs e => regs.set ((R + e.2) % size) e.1) c.regs
           sel := some ((R + vs.length) % size) }

/-- Nothing stored yet. -/
theorem storedFrom_nil (size R : Nat) (c : RegCore) (hsel : c.sel = some R) (hR : R < size) :
    c.storedFrom size R [] = c := by
  have hmod : c.sel = some ((R + 0) % size) := by rw [hsel, Nat.add_zero, Nat.mod_eq_of_lt hR]
  exact congrArg (fun sel => { c with sel := sel }) hmod.symm

/-- One more byte, at the register selected, which steps (R118). -/
theorem storedFrom_concat (size R : Nat) (c : RegCore) (vs : List Byte) (v : Byte) :
    c.storedFrom size R (vs ++ [v]) =
      { c.storedFrom size R vs with
        regs := (c.storedFrom size R vs).regs.set ((R + vs.length) % size) v
        sel := some (((R + vs.length) % size + 1) % size) } := by
  simp only [RegCore.storedFrom, foldl_zipIdx_concat, List.length_append, List.length_singleton, Nat.mod_add_mod,
    Nat.add_assoc]

/-- One more WRITE at the RTC. -/
theorem respond_rtc_storedFrom (env : Env) (dev : Device) (a : BusAddress) (R : Nat) (d : Rtc) (vs : List Byte)
    (v : Byte) (hacc : dev.accepts a = true) (hphase : d.core.phase = .dataWrite) :
    ({ dev with st := .rtc { d with core := d.core.storedFrom (env.cfg.rtcLast + 1) R vs } } : Device).respond env
        (writeMessage v a false) =
      .done (.rtc { d with core := d.core.storedFrom (env.cfg.rtcLast + 1) R (vs ++ [v]) })
        [ackOnly (addressByte a false)] := by
  rw [storedFrom_concat]
  exact respond_rtc_store env { dev with st := .rtc { d with core := d.core.storedFrom (env.cfg.rtcLast + 1) R vs } }
    v a false _ _ hacc rfl hphase rfl

/-- One more WRITE at the auto-incrementing LED driver. -/
theorem respond_led_storedFrom (env : Env) (dev : Device) (a : BusAddress) (R : Nat) (d : Led) (vs : List Byte)
    (v : Byte) (hacc : dev.accepts a = true) (hauto : d.autoinc = true) (hphase : d.core.phase = .dataWrite) :
    ({ dev with st := .led { d with core := d.core.storedFrom 28 R vs } } : Device).respond env
        (writeMessage v a false) =
      .done (.led { d with core := d.core.storedFrom 28 R (vs ++ [v]) }) [ackOnly (addressByte a false)] := by
  have hstore := respond_led_store env { dev with st := .led { d with core := d.core.storedFrom 28 R vs } } v a false
    _ _ hacc rfl hphase rfl
  dsimp only at hstore
  rw [if_pos hauto] at hstore
  rw [storedFrom_concat]
  exact hstore

/-- The keypad after its register writes of the bytes `vs` from register `R` on. -/
def Keypad.writtenFrom (R : Nat) (d : Keypad) (vs : List Byte) : Keypad :=
  vs.zipIdx.foldl (fun d e => (d.writeReg ((R + e.2) % 47) e.1).1) d

theorem writtenFrom_concat (R : Nat) (d : Keypad) (vs : List Byte) (v : Byte) :
    d.writtenFrom R (vs ++ [v]) = ((d.writtenFrom R vs).writeReg ((R + vs.length) % 47) v).1 :=
  foldl_zipIdx_concat _ d vs v

theorem writtenFrom_phase (R : Nat) (d : Keypad) (vs : List Byte) :
    (d.writtenFrom R vs).core.phase = d.core.phase := by
  induction vs using List.reverseRecOn with
  | nil => rfl
  | append_singleton vs v ih =>
    obtain ⟨-, hphase, -⟩ := keypad_writeReg_rest (d.writtenFrom R vs) ((R + vs.length) % 47) v
    rw [writtenFrom_concat, hphase, ih]

/-- The keypad with the selection that a run of WRITEs leaves. -/
def Keypad.storedFrom (R : Nat) (d : Keypad) (vs : List Byte) : Keypad :=
  { d.writtenFrom R vs with core := { (d.writtenFrom R vs).core with sel := some ((R + vs.length) % 47) } }

theorem keypad_storedFrom_nil (R : Nat) (d : Keypad) (hsel : d.core.sel = some R) (hR : R < 47) :
    d.storedFrom R [] = d := by
  have hmod : d.core.sel = some ((R + 0) % 47) := by rw [hsel, Nat.add_zero, Nat.mod_eq_of_lt hR]
  exact congrArg (fun sel => { d with core := { d.core with sel := sel } }) hmod.symm

/-- One more WRITE: the register write at the register selected, which steps (R118, R120). -/
theorem respond_keypad_storedFrom (env : Env) (dev : Device) (a : BusAddress) (R : Nat) (d : Keypad) (vs : List Byte)
    (v : Byte) (hacc : dev.accepts a = true) (hphase : d.core.phase = .dataWrite) :
    ({ dev with st := .keypad (d.storedFrom R vs) } : Device).respond env (writeMessage v a false) =
      .done (.keypad (d.storedFrom R (vs ++ [v])))
        (((d.writtenFrom R vs).writeReg ((R + vs.length) % 47) v).2 ++ [ackOnly (addressByte a false)]) := by
  have hstore := respond_keypad_store env { dev with st := .keypad (d.storedFrom R vs) } v a false (d.storedFrom R vs)
    ((R + vs.length) % 47) hacc rfl ((writtenFrom_phase R d vs).trans hphase) rfl
  rw [hstore, Keypad.storedFrom, keypad_writeReg_sel, Keypad.storedFrom, writtenFrom_concat, List.length_append,
    Nat.mod_add_mod]
  rfl

/-- Settles O57: each WRITE of the run is the store of one byte at the register the ones before it have selected. -/
theorem autoIncrementWritesInOrder : Obligations.AutoIncrementWritesInOrder := by
  refine ⟨?_, ?_, ?_⟩
  · intro s k dev d a R vs haddr hst hphase hsel hR
    obtain ⟨-, -, hacc, -⟩ := id haddr
    obtain ⟨t, out, hrun, hs, hreplies⟩ := runAll_writes
      (fun vs => .rtc { d with core := d.core.storedFrom (s.cfg.rtcLast + 1) R vs }) False haddr
      (by rw [storedFrom_nil _ _ _ hsel (Nat.lt_succ_of_le hR), hst])
      (fun vs v env hcfg => ⟨false, nofun, hcfg ▸ respond_rtc_storedFrom env dev a R d vs v hacc hphase⟩) vs
    exact ⟨t, hrun, hs.running, hs.devices, hreplies.eq_replicate ▸ hs.trace⟩
  · intro s k dev d a R vs haddr hst hauto hphase hsel hR
    obtain ⟨-, -, hacc, -⟩ := id haddr
    obtain ⟨t, out, hrun, hs, hreplies⟩ := runAll_writes
      (fun vs => .led { d with core := d.core.storedFrom 28 R vs }) False haddr
      (by rw [storedFrom_nil _ _ _ hsel (Nat.lt_succ_of_le hR), hst])
      (fun vs v env _ => ⟨false, nofun, respond_led_storedFrom env dev a R d vs v hacc hauto hphase⟩) vs
    exact ⟨t, hrun, hs.running, hs.devices, hreplies.eq_replicate ▸ hs.trace⟩
  · rintro s k dev d a R vs haddr hst hphase hsel hR w rfl
    obtain ⟨-, -, hacc, -⟩ := id haddr
    obtain ⟨t, out, hrun, hs, hreplies⟩ := runAll_writes (fun vs => .keypad (d.storedFrom R vs)) True haddr
      (by rw [keypad_storedFrom_nil _ _ hsel (Nat.lt_succ_of_le hR), hst])
      (fun vs v env _ => by
        obtain ⟨rel, heffects⟩ := keypad_writeReg_effects (d.writtenFrom R vs) ((R + vs.length) % 47) v
        exact ⟨rel, fun _ => trivial, heffects ▸ respond_keypad_storedFrom env dev a R d vs v hacc hphase⟩) vs
    exact ⟨t, out, hrun, hs.running, hs.devices, hs.trace, hreplies.acks, by simpa using hreplies.others⟩

end Sys2Proof.Machine
end

section
/-! PROOFS. A message some device raises on, and START_R to a device with nothing selected (R112, R164, R221, R283,
R285, R316). -/

namespace Sys2Proof.Machine

/-! ## The delivery up to the device that raises -/

/-- The delivery from `s` has come to the unaborted `t`, and the devices of the subscribers `ks`, still to be called,
are as they were. -/
structure Waiting (s : State) (ks : List Nat) (t : State) : Prop where
  running : t.aborted = none
  waiting : ∀ j ∈ ks, t.devices[j]? = s.devices[j]?

/-- A delivery of `m` from `s` that has ended in `t`: device `k`, which is `dev` and still is, has raised. -/
structure RaisedAt (s : State) (m : BusMessage) (k : Nat) (dev : Device) (t : State) : Prop where
  live   : liveAt s k dev
  device : t.devices[k]? = some dev
  raise  : ∃ env c info, dev.respond env m = .raise c info ∧
    t.aborted = some { cause := c, device := k, info := info }

section
variable {s t : State} {m : BusMessage} {j : Nat} {ks : List Nat}

theorem liveAt_congr (h : t.devices[j]? = s.devices[j]?) (dev : Device) : liveAt t j dev ↔ liveAt s j dev := by
  rw [liveAt, liveAt, liveDevice?_eq_some, liveDevice?_eq_some, h]

/-- A subscriber that does not raise. -/
theorem Waiting.next (h : Waiting s (j :: ks) t) (hnd : j ∉ ks) (hrun : (t.subscriber m j).aborted = none) :
    Waiting s ks (t.subscriber m j) where
  running := hrun
  waiting := fun i hi => by
    have hij : i ≠ j := fun heq => hnd (heq ▸ hi)
    rw [subscriber_devices_other t m j i hij, h.waiting i (List.mem_cons_of_mem _ hi)]

/-- The subscriber called next leaves the run unaborted, no device there having raised, or it is a device that
raises. -/
theorem Waiting.call (h : Waiting s (j :: ks) t) (m : BusMessage) :
    ((t.subscriber m j).aborted = none ∧
      ∀ dev, liveAt s j dev → ∃ env st es, dev.respond env m = .done st es) ∨
    ∃ dev, RaisedAt s m j dev (t.subscriber m j) := by
  have hlive_iff := liveAt_congr (h.waiting j List.mem_cons_self)
  by_cases hj : j = t.devices.length
  · subst hj
    rw [subscriber_listener t m h.running]
    refine .inl ⟨(listenOut_aborted t m).trans h.running, fun dev hlive => ?_⟩
    have hlt := (List.getElem?_eq_some_iff.mp ((liveDevice?_eq_some _ _ dev).mp ((hlive_iff dev).mpr hlive)).1).1
    exact absurd hlt (lt_irrefl _)
  · rw [subscriber_device t m j h.running hj]
    cases hcalled : t.liveDevice? j with
    | none =>
      have hadapter : t.adapter m j = t := by simp only [State.adapter, hcalled]
      refine .inl ⟨(congrArg State.aborted hadapter).trans h.running, fun dev hlive => ?_⟩
      exact absurd ((hlive_iff dev).mpr hlive) (by simp [liveAt, hcalled])
    | some dev =>
      rw [adapter_react t j dev m hcalled]
      cases hrespond : dev.respond t.env m with
      | done st es =>
        refine .inl ⟨(performAll_aborted _ j es).trans h.running, fun dev' hlive => ?_⟩
        obtain rfl : dev = dev' := Option.some.inj (hcalled.symm.trans ((hlive_iff dev').mpr hlive))
        exact ⟨_, st, es, hrespond⟩
      | raise c info =>
        exact .inr ⟨dev, (hlive_iff dev).mp hcalled, ((liveDevice?_eq_some t j dev).mp hcalled).1, _, c, info, hrespond,
          rfl⟩

/-- Where some device still to be called raises, the delivery ends at one that does. -/
theorem Waiting.raised (h : Waiting s ks t) (hnd : ks.Nodup)
    (hraise : ∃ i ∈ ks, ∃ dev, liveAt s i dev ∧ ∀ env, ∃ c info, dev.respond env m = .raise c info) :
    ∃ k dev, RaisedAt s m k dev (ks.foldl (State.subscriber m) t) := by
  induction ks generalizing t with
  | nil => simp at hraise
  | cons j ks ih =>
    obtain ⟨hjks, hnd'⟩ := List.nodup_cons.mp hnd
    rw [List.foldl_cons]
    rcases h.call m with ⟨hrun, hdone⟩ | ⟨dev, hend⟩
    · refine ih (h.next hjks hrun) hnd' ?_
      obtain ⟨i, hi, dev, hlive, hraises⟩ := hraise
      rcases List.mem_cons.mp hi with rfl | hi
      · obtain ⟨env, st, es, hrespond⟩ := hdone dev hlive
        obtain ⟨c, info, hraise⟩ := hraises env
        cases hrespond.symm.trans hraise
      · exact ⟨i, hi, dev, hlive, hraises⟩
    · obtain ⟨env, c, info, hrespond, haborted⟩ := hend.raise
      rw [foldl_subscriber_aborted m ks _ _ haborted]
      exact ⟨j, dev, hend⟩

end

/-- A message some live device raises on: the delivery ends at such a device, in whatever order (R283, R285). -/
theorem deliver_raised (s : State) (m : BusMessage) (hab : s.aborted = none)
    (hraise : ∃ dev ∈ s.devices, dev.live = true ∧ ∀ env, ∃ c info, dev.respond env m = .raise c info) :
    ∃ k dev, RaisedAt s m k dev (s.deliver m) := by
  have hstart : Waiting s (deliveryOrder s.devices.length s.order) { s with ab := m.ab } :=
    { running := hab, waiting := fun _ _ => rfl }
  refine hstart.raised (deliveryOrder_nodup _ _) ?_
  obtain ⟨dev, hmem, hlive, hraises⟩ := hraise
  obtain ⟨i, hi⟩ := List.mem_iff_getElem?.mp hmem
  have hlt := (List.getElem?_eq_some_iff.mp hi).1
  exact ⟨i, (mem_deliveryOrder _ _ i).mpr hlt.le, dev, (liveDevice?_eq_some s i dev).mpr ⟨hi, hlive⟩, hraises⟩

/-! ## START_R with nothing selected -/

theorem onStartR_unselected {δ : Type} (p : Plugs δ) (m : BusMessage) (d : δ) (h : (p.core d).sel.isSome = false) :
    p.onStartR m d = .raise .protocolDesync (.message m) := by
  have hsel : (p.core d).sel = none := by simpa using h
  rw [Plugs.onStartR, hsel]

theorem eeprom_onStartR_unselected (m : BusMessage) (d : Eeprom) (h : d.ptr.isSome = false) :
    d.onStartR m = .raise .protocolDesync (.message m) := by
  have hptr : d.ptr = none := by simpa using h
  rw [Eeprom.onStartR, hptr]

/-- START_R is fatal where nothing is selected (R112, R164, R221). -/
theorem matched_startR_unselected (env : Env) (v : Byte) (a : BusAddress) (st : DevState) (h : st.selected = false) :
    st.matched env (startMessage v a true) = .raise .protocolDesync (.message (startMessage v a true)) := by
  cases st with
  | rtc d => exact congrArg (Reaction.map DevState.rtc) (onStartR_unselected (rtcPlugs env.cfg) _ d h)
  | keypad d => exact congrArg (Reaction.map DevState.keypad) (onStartR_unselected kpPlugs _ d h)
  | led d => exact congrArg (Reaction.map DevState.led) (onStartR_unselected ledPlugs _ d h)
  | eeprom d => exact congrArg (Reaction.map DevState.eeprom) (eeprom_onStartR_unselected _ d h)
  | display d => rfl

/-- The only devices that raise on a START_R are those. -/
theorem respond_startR_eq_raise (env : Env) (v : Byte) (a : BusAddress) (dev : Device) (c : Cause) (info : FaultInfo)
    (h : dev.respond env (startMessage v a true) = .raise c info) :
    dev.accepts a = true ∧ dev.st.selected = false ∧ c = .protocolDesync ∧
      info = .message (startMessage v a true) := by
  cases hacc : dev.accepts a with
  | false =>
    rw [respond_unmatched env (startMessage v a true) dev hacc] at h
    cases h
  | true =>
    rw [respond_accepted env (startMessage v a true) dev hacc] at h
    cases hselected : dev.st.selected with
    | true =>
      rw [matched_startR env v a dev.st hselected] at h
      cases h
    | false =>
      rw [matched_startR_unselected env v a dev.st hselected] at h
      cases h
      exact ⟨rfl, rfl, rfl, rfl⟩

/-- Settles O14: the delivery ends at a device that raises, which is one with nothing selected. -/
theorem startReadWithoutSelectionIsFatal : Obligations.StartReadWithoutSelectionIsFatal := by
  rintro s v a hab ⟨dev, hmem, hlive, hacc, hselected⟩
  obtain ⟨k, dev', hend⟩ := deliver_raised s (startMessage v a true) hab ⟨dev, hmem, hlive, fun env =>
    ⟨_, _, (respond_accepted env (startMessage v a true) dev hacc).trans
      (matched_startR_unselected env v a dev.st hselected)⟩⟩
  obtain ⟨env, c, info, hrespond, haborted⟩ := hend.raise
  obtain ⟨hacc', hselected', rfl, rfl⟩ := respond_startR_eq_raise env v a dev' c info hrespond
  exact ⟨_, k, dev', unlessAborted_of_none s (fun s => s.deliver (startMessage v a true)) hab, hend.live, hacc',
    hselected', hend.device, haborted⟩

end Sys2Proof.Machine
end

section
/-! PROOFS. What the carry chain leaves alone, whatever the time registers hold (R136, R146). -/

namespace Sys2Proof.Machine

/-! ## A field written -/

/-- Where some bits of a byte are replaced, the others are kept. -/
theorem merge_and_outside (old new field k : Byte) (h : k &&& field = 0) :
    ((old &&& ~~~field) ||| (new &&& field)) &&& k = old &&& k := by
  ext i hi
  have hbit : (k[i] && field[i]) = false := by
    simpa using congrArg (fun b : Byte => b[i]) h
  cases hk : k[i] with
  | false => simp [hk]
  | true =>
    rw [hk, Bool.true_and] at hbit
    simp [hk, hbit]

/-- The replaced bits are the new ones. -/
theorem merge_and_inside (old new field k : Byte) (h : k &&& ~~~field = 0) :
    ((old &&& ~~~field) ||| (new &&& field)) &&& k = new &&& k := by
  have hswap := merge_and_outside new old (~~~field) k h
  rwa [BitVec.not_not, BitVec.or_comm] at hswap

/-- Bits outside the field are kept (R136). -/
theorem withField_and_outside (old m new k : Byte) (h : k &&& (m ||| 0x0F) = 0) :
    withField old m new &&& k = old &&& k := merge_and_outside old new (m ||| 0x0F) k h

/-- A flag outside the field is kept (R16, R136). -/
theorem withField_flag (old m new : Byte) (i : Nat) (hi : i < 8) (h : BitVec.twoPow 8 i &&& (m ||| 0x0F) = 0) :
    (withField old m new).getLsbD i = old.getLsbD i := by
  have hbit (b : Byte) : b.getLsbD i = (b &&& BitVec.twoPow 8 i).getLsbD i := by simp [hi]
  rw [hbit, withField_and_outside old m new _ h, ← hbit]

/-- The bits of register `i` outside its time field (R15, R16, R141); from the control register on, all of them. -/
def keptBits : Nat → Byte
  | 0 | 1 => 0x80
  | 2 | 4 => 0xC0
  | 3 => 0xF8
  | 5 => 0xE0
  | 6 => 0x00
  | _ => 0xFF

/-- A store outside the file changes nothing (log 31). -/
theorem regRead_regWrite_self (regs : List Byte) (i : Nat) (v : Byte) :
    regRead (regWrite regs i v) i = v ∨ regRead (regWrite regs i v) i = regRead regs i := by
  by_cases h : i < regs.length
  · exact .inl (regRead_regWrite_same regs i v h)
  · exact .inr (by rw [regWrite, List.set_eq_of_length_le (Nat.le_of_not_lt h)])

/-! ## One register written, and a carry from one register on -/

/-- From `c` to `c'` the chain writes register `j`, inside its field, and may draw free values. -/
structure Chain.Writes (j : Nat) (c c' : Chain) : Prop where
  others : ∀ i, i ≠ j → regRead c'.regs i = regRead c.regs i
  kept   : regRead c'.regs j &&& keptBits j = regRead c.regs j &&& keptBits j
  draws  : c.draws ≤ c'.draws

/-- From `c` to `c'` the chain writes registers from `j` on, inside their fields, and may draw free values. -/
structure Chain.Carries (j : Nat) (c c' : Chain) : Prop where
  below : ∀ i, i < j → regRead c'.regs i = regRead c.regs i
  kept  : ∀ i, regRead c'.regs i &&& keptBits i = regRead c.regs i &&& keptBits i
  draws : c.draws ≤ c'.draws

theorem Chain.Carries.refl (j : Nat) (c : Chain) : c.Carries j c := ⟨fun _ _ => rfl, fun _ => rfl, le_rfl⟩

theorem Chain.Carries.mono {i j : Nat} {c c' : Chain} (h : c.Carries j c') (hij : i ≤ j) : c.Carries i c' :=
  ⟨fun n hn => h.below n (hn.trans_le hij), h.kept, h.draws⟩

theorem Chain.Carries.trans {j : Nat} {c c' c'' : Chain} (h : c.Carries j c') (h' : c'.Carries j c'') :
    c.Carries j c'' :=
  ⟨fun i hi => (h'.below i hi).trans (h.below i hi), fun i => (h'.kept i).trans (h.kept i), h.draws.trans h'.draws⟩

theorem Chain.Writes.carries {j : Nat} {c c' : Chain} (h : c.Writes j c') : c.Carries j c' := by
  refine ⟨fun i hi => h.others i hi.ne, fun i => ?_, h.draws⟩
  by_cases hi : i = j
  · rw [hi, h.kept]
  · rw [h.others i hi]

/-- A carry into a later register. -/
theorem Chain.Writes.carry {i j : Nat} {c c' c'' : Chain} (h : c.Writes i c') (hij : i ≤ j) (h' : c'.Carries j c'') :
    c.Carries i c'' := h.carries.trans (h'.mono hij)

theorem regWrite_writes (c : Chain) (j : Nat) (v : Byte) (n : Nat)
    (hv : v &&& keptBits j = regRead c.regs j &&& keptBits j) (hn : c.draws ≤ n) :
    c.Writes j { regs := regWrite c.regs j v, draws := n } := by
  refine ⟨fun i hi => regRead_regWrite_other c.regs j i v (Ne.symm hi), ?_, hn⟩
  rcases regRead_regWrite_self c.regs j v with hread | hread
  · rw [hread, hv]
  · rw [hread]

theorem setField_writes (c : Chain) (j : Nat) (m : Byte) (v : Nat) (hm : keptBits j &&& (m ||| 0x0F) = 0) :
    c.Writes j (c.setField j m v) :=
  regWrite_writes c j _ _ (withField_and_outside _ m _ _ hm) le_rfl

theorem freeField_writes (c : Chain) (j : Nat) (m : Byte) (hm : keptBits j &&& (m ||| 0x0F) = 0) :
    c.Writes j (c.freeField j m) :=
  regWrite_writes c j _ _ (withField_and_outside _ m _ _ hm) (Nat.le_succ _)

/-! ## The stages of the chain -/

theorem year_carries (c : Chain) (carry : Bool) : c.Carries rtcYear (c.year carry) := by
  unfold Chain.year
  dsimp only
  split
  · split
    · exact (setField_writes c rtcYear _ _ (by decide)).carries
    · exact .refl _ c
  · exact (freeField_writes c rtcYear _ (by decide)).carries

theorem month_carries (c : Chain) (carry : Bool) : c.Carries rtcMonth (c.month carry) := by
  have hset (v : Nat) (b : Bool) : c.Carries rtcMonth ((c.setField rtcMonth maskMonth v).year b) :=
    (setField_writes c rtcMonth _ v (by decide)).carry (by decide) (year_carries _ b)
  unfold Chain.month
  dsimp only
  split
  · split
    · split
      · exact hset _ _
      · exact hset _ _
    · exact (year_carries c false).mono (by decide)
  · exact (freeField_writes c rtcMonth _ (by decide)).carry (by decide) (year_carries _ _)

theorem date_carries (cfg : Config) (c : Chain) : c.Carries rtcDate (c.date cfg) := by
  have hset (c : Chain) (v : Nat) (b : Bool) : c.Carries rtcDate ((c.setField rtcDate maskDate v).month b) :=
    (setField_writes c rtcDate _ v (by decide)).carry (by decide) (month_carries _ b)
  have hdrawn : c.Carries rtcDate (if (c.monthLength cfg).2 then { c with draws := c.draws + 1 } else c) := by
    split
    · exact ⟨fun _ _ => rfl, fun _ => rfl, Nat.le_succ _⟩
    · exact .refl _ c
  unfold Chain.date
  dsimp only at hdrawn ⊢
  generalize (if (c.monthLength cfg).2 = true then _ else c) = drawn at hdrawn ⊢
  refine hdrawn.trans ?_
  split
  · split
    · exact hset _ _ _
    · exact hset _ _ _
  · exact (freeField_writes drawn rtcDate _ (by decide)).carry (by decide) (month_carries _ _)

/-- A day of the week lies in bits 2:0 (R141). -/
theorem weekday_and_field : ∀ d ≤ 7, BitVec.ofNat 8 d &&& (0x07 : Byte) = BitVec.ofNat 8 d := by decide

theorem dayOfWeek_writes (c : Chain) : c.Writes rtcDow c.dayOfWeek := by
  unfold Chain.dayOfWeek
  dsimp only
  split
  · rw [← weekday_and_field (if 7 ≤ dowOf (regRead c.regs rtcDow) then 1 else dowOf (regRead c.regs rtcDow) + 1)
      (by split <;> omega)]
    exact regWrite_writes c rtcDow _ _ (merge_and_outside _ _ _ _ (by decide)) le_rfl
  · exact regWrite_writes c rtcDow _ _ (merge_and_outside _ _ _ _ (by decide)) (Nat.le_succ _)

theorem newDay_carries (cfg : Config) (c : Chain) : c.Carries rtcDow (c.newDay cfg) :=
  (dayOfWeek_writes c).carry (by decide) (date_carries cfg _)

theorem togglePm_writes (c : Chain) : c.Writes rtcHour c.togglePm :=
  have hpm : ∀ b : Byte, (b ^^^ rtcPmBit) &&& 0xC0 = b &&& 0xC0 := by decide
  regWrite_writes c rtcHour _ _ (hpm _) le_rfl

theorem newDayIfAm_carries (cfg : Config) (c : Chain) : c.Carries rtcDow (c.newDayIfAm cfg) := by
  unfold Chain.newDayIfAm
  split
  · exact .refl _ c
  · exact newDay_carries cfg c

theorem hours12_carries (cfg : Config) (c : Chain) : c.Carries rtcHour (c.hours12 cfg) := by
  have hset (v : Nat) : c.Writes rtcHour (c.setField rtcHour maskHour12 v) := setField_writes c rtcHour _ v (by decide)
  have htoggle (v : Nat) : c.Carries rtcHour (((c.setField rtcHour maskHour12 v).togglePm).newDayIfAm cfg) :=
    (hset v).carry le_rfl ((togglePm_writes _).carry (by decide) (newDayIfAm_carries cfg _))
  unfold Chain.hours12
  dsimp only
  split
  · split
    · exact (hset _).carries
    · exact htoggle 1
  · split
    · exact htoggle 12
    · split
      · exact (hset _).carries
      · exact (hset _).carries

theorem hours24_carries (cfg : Config) (c : Chain) : c.Carries rtcHour (c.hours24 cfg) := by
  have hset (v : Nat) : c.Writes rtcHour (c.setField rtcHour maskHour24 v) := setField_writes c rtcHour _ v (by decide)
  unfold Chain.hours24
  dsimp only
  split
  · exact (hset _).carries
  · exact (hset 0).carry (by decide) (newDay_carries cfg _)

/-- Ill-formed hours (R146): the draw, and a new day or none. -/
theorem hours_illFormed (cfg : Config) (c : Chain) (h : hourWf (regRead c.regs rtcHour) = false) :
    (c.freeField rtcHour (hourMask (regRead c.regs rtcHour))).Carries rtcDow (c.hours cfg) := by
  unfold Chain.hours
  simp only [h, Bool.false_eq_true, if_false]
  split
  · exact newDay_carries cfg _
  · exact .refl _ _

theorem hourMask_cases (b : Byte) : hourMask b = maskHour12 ∨ hourMask b = maskHour24 := by
  unfold hourMask
  split
  · exact .inl rfl
  · exact .inr rfl

theorem hours_carries (cfg : Config) (c : Chain) : c.Carries rtcHour (c.hours cfg) := by
  cases hwf : hourWf (regRead c.regs rtcHour) with
  | true =>
    unfold Chain.hours
    simp only [hwf, if_true]
    split
    · exact hours12_carries cfg c
    · exact hours24_carries cfg c
  | false =>
    refine (freeField_writes c rtcHour _ ?_).carry (by decide) (hours_illFormed cfg c hwf)
    rcases hourMask_cases (regRead c.regs rtcHour) with hm | hm
    · rw [hm]; decide
    · rw [hm]; decide

/-- Minutes (R138, R146): one write, and then the hours or not. -/
theorem minutes_cases (cfg : Config) (c : Chain) :
    ∃ c', c.Writes rtcMin c' ∧ (c.minutes cfg = c' ∨ c.minutes cfg = c'.hours cfg) := by
  have hset (v : Nat) := setField_writes c rtcMin maskMin v (by decide)
  have hfree := freeField_writes c rtcMin maskMin (by decide)
  unfold Chain.minutes
  dsimp only
  split
  · split
    · exact ⟨_, hset _, .inl rfl⟩
    · exact ⟨_, hset 0, .inr rfl⟩
  · split
    · exact ⟨_, hfree, .inr rfl⟩
    · exact ⟨_, hfree, .inl rfl⟩

/-- Seconds (R137, R146): one write, and then the minutes or not. -/
theorem seconds_cases (cfg : Config) (c : Chain) :
    ∃ c', c.Writes rtcSec c' ∧ (c.seconds cfg = c' ∨ c.seconds cfg = c'.minutes cfg) := by
  have hset (v : Nat) := setField_writes c rtcSec maskSec v (by decide)
  have hfree := freeField_writes c rtcSec maskSec (by decide)
  unfold Chain.seconds
  dsimp only
  split
  · split
    · exact ⟨_, hset _, .inl rfl⟩
    · exact ⟨_, hset 0, .inr rfl⟩
  · split
    · exact ⟨_, hfree, .inr rfl⟩
    · exact ⟨_, hfree, .inl rfl⟩

theorem minutes_carries (cfg : Config) (c : Chain) : c.Carries rtcMin (c.minutes cfg) := by
  obtain ⟨c', hwrite, hstop | hcarry⟩ := minutes_cases cfg c
  · rw [hstop]; exact hwrite.carries
  · rw [hcarry]; exact hwrite.carry (by decide) (hours_carries cfg c')

theorem seconds_carries (cfg : Config) (c : Chain) : c.Carries rtcSec (c.seconds cfg) := by
  obtain ⟨c', hwrite, hstop | hcarry⟩ := seconds_cases cfg c
  · rw [hstop]; exact hwrite.carries
  · rw [hcarry]; exact hwrite.carry (by decide) (minutes_carries cfg c')

/-- The registers from the control register on are no time registers (R136). -/
theorem seconds_getElem? (cfg : Config) (c : Chain) (i : Nat) (hi : 7 ≤ i) :
    (c.seconds cfg).regs[i]? = c.regs[i]? := by
  have hkept : keptBits i = 0xFF := by
    obtain ⟨n, rfl⟩ := Nat.exists_eq_add_of_le' hi
    rfl
  have hread : regRead (c.seconds cfg).regs i = regRead c.regs i := by
    have h := (seconds_carries cfg c).kept i
    rwa [hkept, show (0xFF : Byte) = BitVec.allOnes 8 from rfl, BitVec.and_allOnes, BitVec.and_allOnes] at h
  by_cases hlt : i < c.regs.length
  · have hlt' : i < (c.seconds cfg).regs.length := (seconds_length cfg c).symm ▸ hlt
    rw [List.getElem?_eq_getElem hlt, List.getElem?_eq_getElem hlt']
    simpa [regRead, List.getD_eq_getElem, hlt, hlt'] using hread
  · have hge : c.regs.length ≤ i := Nat.le_of_not_lt hlt
    rw [List.getElem?_eq_none hge, List.getElem?_eq_none ((seconds_length cfg c).trans_le hge)]

/-! ## AM/PM of ill-formed hours -/

/-- `c'` has the AM/PM flag of `c` where the hours of `c` are ill-formed in 12-hour mode. -/
def Chain.KeepsIllFormedPm (c c' : Chain) : Prop :=
  rtcTwelveHour c.regs = true → hourWf (regRead c.regs rtcHour) = false → rtcPm c'.regs = rtcPm c.regs

/-- A draw writes the field only, and in 12-hour mode AM/PM is outside it (R16, R146). -/
theorem hours_keepsIllFormedPm (cfg : Config) (c : Chain) : c.KeepsIllFormedPm (c.hours cfg) := by
  intro htwelve hwf
  have hmask : hourMask (regRead c.regs rtcHour) = maskHour12 := if_pos htwelve
  have hday := (hours_illFormed cfg c hwf).below rtcHour (by decide)
  rw [hmask, Chain.freeField] at hday
  rw [rtcPm, hday, rtcPm]
  rcases regRead_regWrite_self c.regs rtcHour
    (withField (regRead c.regs rtcHour) maskHour12 (Config.freeByte c.draws)) with hread | hread
  · rw [hread, withField_flag _ _ _ _ (by decide) (by decide)]
  · rw [hread]

/-- What is kept of the hours after a write of another register is kept of the hours before it. -/
theorem Chain.Writes.keepsIllFormedPm {j : Nat} {c c' c'' : Chain} (h : c.Writes j c') (hj : rtcHour ≠ j)
    (h' : c'.KeepsIllFormedPm c'') : c.KeepsIllFormedPm c'' := by
  unfold Chain.KeepsIllFormedPm rtcTwelveHour rtcPm at h' ⊢
  rwa [h.others rtcHour hj] at h'

theorem minutes_keepsIllFormedPm (cfg : Config) (c : Chain) : c.KeepsIllFormedPm (c.minutes cfg) := by
  obtain ⟨c', hwrite, hstop | hcarry⟩ := minutes_cases cfg c
  · rw [hstop]; exact hwrite.keepsIllFormedPm (by decide) fun _ _ => rfl
  · rw [hcarry]; exact hwrite.keepsIllFormedPm (by decide) (hours_keepsIllFormedPm cfg c')

theorem seconds_keepsIllFormedPm (cfg : Config) (c : Chain) : c.KeepsIllFormedPm (c.seconds cfg) := by
  obtain ⟨c', hwrite, hstop | hcarry⟩ := seconds_cases cfg c
  · rw [hstop]; exact hwrite.keepsIllFormedPm (by decide) fun _ _ => rfl
  · rw [hcarry]; exact hwrite.keepsIllFormedPm (by decide) (minutes_keepsIllFormedPm cfg c')

theorem Chain.Carries.keeps_outside_fields {j : Nat} {c c' : Chain} (h : c.Carries j c') :
    regRead c'.regs 0 &&& 0x80 = regRead c.regs 0 &&& 0x80 ∧ regRead c'.regs 1 &&& 0x80 = regRead c.regs 1 &&& 0x80 ∧
    regRead c'.regs 2 &&& 0xC0 = regRead c.regs 2 &&& 0xC0 ∧ regRead c'.regs 3 &&& 0xF8 = regRead c.regs 3 &&& 0xF8 ∧
    regRead c'.regs 4 &&& 0xC0 = regRead c.regs 4 &&& 0xC0 ∧ regRead c'.regs 5 &&& 0xE0 = regRead c.regs 5 &&& 0xE0 :=
  ⟨h.kept 0, h.kept 1, h.kept 2, h.kept 3, h.kept 4, h.kept 5⟩

/-- Settles O47: every stage writes inside its field only, whatever the registers and the free values are. -/
theorem illFormedTimeKeepsItsOtherBits : Obligations.IllFormedTimeKeepsItsOtherBits := by
  intro cfg regs n _ r hr
  have hlength := seconds_length cfg { regs := regs, draws := n }
  have habove := seconds_getElem? cfg { regs := regs, draws := n }
  have hpm := seconds_keepsIllFormedPm cfg { regs := regs, draws := n }
  have hkept := (seconds_carries cfg { regs := regs, draws := n }).keeps_outside_fields
  rw [Chain.KeepsIllFormedPm] at hpm
  rw [← hr] at hlength habove hpm hkept
  obtain ⟨hsec, hmin, hhour, hdow, hdate, hmonth⟩ := hkept
  exact ⟨hlength, habove, hsec, hmin, hhour, hpm, hdow, hdate, hmonth⟩

end Sys2Proof.Machine
end

section
/-! PROOFS. One second of the carry chain on well-formed time is the next time on the clock (R132, R136 to R145). -/

namespace Sys2Proof.Machine

/-! ## A decimal number in a field (R8, R69, R136) -/

/-- The field with tens mask `m` has room for the number `v`. -/
def Fits (m : Byte) (v : Nat) : Prop :=
  (bcdEnc v m &&& m).toNat / 16 = v / 10 ∧ (bcdEnc v m &&& 0x0F).toNat = v % 10

theorem fits_sixty : ∀ v ≤ 59, Fits maskSec v := by unfold Fits; decide
theorem fits_hour24 : ∀ v ≤ 23, Fits maskHour24 v := by unfold Fits; decide
theorem fits_hour12 : ∀ v ≤ 12, Fits maskHour12 v := by unfold Fits; decide
theorem fits_date : ∀ v ≤ 31, Fits maskDate v := by unfold Fits; decide
theorem fits_month : ∀ v ≤ 12, Fits maskMonth v := by unfold Fits; decide
theorem fits_year : ∀ v ≤ 99, Fits maskYear v := by unfold Fits; decide

theorem and_not_or_self (a b : Byte) : a &&& ~~~(a ||| b) = 0 := by
  rw [BitVec.not_or, ← BitVec.and_assoc, BitVec.and_not_self]
  exact BitVec.zero_and

section
variable (old m : Byte) (v : Nat)

theorem withField_tens (h : Fits m v) : tensOf (withField old m (bcdEnc v m)) m = v / 10 := by
  rw [tensOf, withField, merge_and_inside _ _ _ m (and_not_or_self m 0x0F), h.1]

theorem withField_ones (h : Fits m v) : (withField old m (bcdEnc v m) &&& 0x0F).toNat = v % 10 := by
  have hones : (0x0F : Byte) &&& ~~~(m ||| 0x0F) = 0 := by
    rw [BitVec.or_comm]
    exact and_not_or_self 0x0F m
  rw [withField, merge_and_inside _ _ _ 0x0F hones, h.2]

/-- What is written into a field is read back (R8, R136). -/
theorem bcdDec_withField (h : Fits m v) : bcdDec (withField old m (bcdEnc v m)) m = v := by
  have htens := withField_tens old m v h
  rw [tensOf] at htens
  rw [bcdDec, htens, withField_ones old m v h]
  omega

theorem onesWf_withField (h : Fits m v) : onesWf (withField old m (bcdEnc v m)) = true := by
  rw [onesWf, withField_ones old m v h]
  exact decide_eq_true (by omega)

theorem countedWf_withField (h : Fits m v) (hi : Nat) (hv : 1 ≤ v ∧ v ≤ hi) :
    (onesWf (withField old m (bcdEnc v m)) && decide (1 ≤ bcdDec (withField old m (bcdEnc v m)) m) &&
      decide (bcdDec (withField old m (bcdEnc v m)) m ≤ hi)) = true := by
  simp only [onesWf_withField old m v h, bcdDec_withField old m v h, hv, decide_true, Bool.and_self]

theorem yearWf_withField (h : Fits maskYear v) (hv : v ≤ 99) :
    yearWf (withField old maskYear (bcdEnc v maskYear)) = true := by
  rw [yearWf, onesWf_withField old maskYear v h, withField_tens old maskYear v h]
  exact decide_eq_true (by omega)

theorem sixtyWf_withField (h : Fits m v) (hv : v ≤ 59) : sixtyWf (withField old m (bcdEnc v m)) m = true := by
  rw [sixtyWf, onesWf_withField old m v h, withField_tens old m v h]
  exact decide_eq_true (by omega)

end

/-! ## The time fields of a register file -/

/-- Register `i` holding `b` is well-formed (R132); only the time registers can be ill-formed. -/
def fieldWf (i : Nat) (b : Byte) : Bool :=
  match i with
  | 0 => sixtyWf b maskSec
  | 1 => sixtyWf b maskMin
  | 2 => hourWf b
  | 3 => dowWf b
  | 4 => dateWf b
  | 5 => monthWf b
  | 6 => yearWf b
  | _ => true

theorem timeWf_iff (regs : List Byte) : timeWf regs = true ↔ ∀ i, fieldWf i (regRead regs i) = true := by
  simp only [timeWf, Bool.and_eq_true, and_assoc]
  refine ⟨fun ⟨h0, h1, h2, h3, h4, h5, h6⟩ i => ?_, fun h => ⟨h 0, h 1, h 2, h 3, h 4, h 5, h 6⟩⟩
  match i with
  | 0 => exact h0
  | 1 => exact h1
  | 2 => exact h2
  | 3 => exact h3
  | 4 => exact h4
  | 5 => exact h5
  | 6 => exact h6
  | _ + 7 => rfl

theorem timeWf_regWrite (regs : List Byte) (j : Nat) (v : Byte) (h : timeWf regs = true) (hv : fieldWf j v = true) :
    timeWf (regWrite regs j v) = true := by
  refine (timeWf_iff _).mpr fun i => ?_
  have hold := (timeWf_iff regs).mp h i
  by_cases hi : i = j
  · subst hi
    rcases regRead_regWrite_self regs i v with hread | hread
    · rwa [hread]
    · rwa [hread]
  · rwa [regRead_regWrite_other regs j i v (Ne.symm hi)]

theorem regRead_regWrite (regs : List Byte) (j : Nat) (v : Byte) (h : j < regs.length) :
    regRead (regWrite regs j v) = Function.update (regRead regs) j v := by
  funext i
  by_cases hi : i = j
  · rw [hi, regRead_regWrite_same regs j v h, Function.update_self]
  · rw [regRead_regWrite_other regs j i v (Ne.symm hi), Function.update_of_ne hi]

/-- The time that registers show, register by register. -/
def clockAt (reg : Nat → Byte) : ClockTime where
  sec := bcdDec (reg rtcSec) maskSec
  min := bcdDec (reg rtcMin) maskMin
  hour := bcdDec (reg rtcHour) (if (reg rtcHour).getLsbD 6 then maskHour12 else maskHour24)
  pm := (reg rtcHour).getLsbD 6 && (reg rtcHour).getLsbD 5
  dow := dowOf (reg rtcDow)
  date := bcdDec (reg rtcDate) maskDate
  month := bcdDec (reg rtcMonth) maskMonth
  year := bcdDec (reg rtcYear) maskYear

theorem clockOf_eq_clockAt (regs : List Byte) : clockOf regs = clockAt (regRead regs) := rfl

/-- The hours register written in 12-hour mode holds the hour and AM/PM (R16). -/
theorem clockAt_hour12 (reg : Nat → Byte) (w : Byte) (h : w.getLsbD 6 = true) :
    clockAt (Function.update reg rtcHour w) =
      { clockAt reg with hour := bcdDec w maskHour12, pm := w.getLsbD 5 } := by
  unfold clockAt
  rw [Function.update_self, h]
  rfl

theorem clockAt_hour24 (reg : Nat → Byte) (w : Byte) (h : w.getLsbD 6 = false) :
    clockAt (Function.update reg rtcHour w) = { clockAt reg with hour := bcdDec w maskHour24, pm := false } := by
  unfold clockAt
  rw [Function.update_self, h]
  rfl

/-! ## The chain at a well-formed time -/

/-- The chain's registers are well-formed and show the time `t` in 12-hour mode or not, and `n` free values have been
drawn. -/
structure Chain.Shows (twelve : Bool) (t : ClockTime) (n : Nat) (c : Chain) : Prop where
  length : 8 ≤ c.regs.length
  mode   : rtcTwelveHour c.regs = twelve
  clock  : clockOf c.regs = t
  wf     : timeWf c.regs = true
  draws  : c.draws = n

namespace Chain.Shows
variable {twelve : Bool} {t : ClockTime} {n : Nat} {c : Chain}

theorem sec_eq (h : c.Shows twelve t n) : bcdDec (regRead c.regs rtcSec) maskSec = t.sec := by
  rw [← h.clock]; rfl
theorem min_eq (h : c.Shows twelve t n) : bcdDec (regRead c.regs rtcMin) maskMin = t.min := by
  rw [← h.clock]; rfl
theorem dow_eq (h : c.Shows twelve t n) : dowOf (regRead c.regs rtcDow) = t.dow := by
  rw [← h.clock]; rfl
theorem date_eq (h : c.Shows twelve t n) : bcdDec (regRead c.regs rtcDate) maskDate = t.date := by
  rw [← h.clock]; rfl
theorem month_eq (h : c.Shows twelve t n) : bcdDec (regRead c.regs rtcMonth) maskMonth = t.month := by
  rw [← h.clock]; rfl
theorem year_eq (h : c.Shows twelve t n) : bcdDec (regRead c.regs rtcYear) maskYear = t.year := by
  rw [← h.clock]; rfl
theorem hour12_eq (h : c.Shows true t n) : bcdDec (regRead c.regs rtcHour) maskHour12 = t.hour := by
  rw [← h.clock, clockOf, h.mode]; rfl
theorem hour24_eq (h : c.Shows false t n) : bcdDec (regRead c.regs rtcHour) maskHour24 = t.hour := by
  rw [← h.clock, clockOf, h.mode]; rfl
theorem pm_eq (h : c.Shows true t n) : rtcPm c.regs = t.pm := by
  rw [← h.clock, clockOf, h.mode]; rfl
theorem am_of_24 (h : c.Shows false t n) : false = t.pm := by
  rw [← h.clock, clockOf, h.mode]; rfl

theorem sec_wf (h : c.Shows twelve t n) : sixtyWf (regRead c.regs rtcSec) maskSec = true := (timeWf_iff _).mp h.wf 0
theorem min_wf (h : c.Shows twelve t n) : sixtyWf (regRead c.regs rtcMin) maskMin = true := (timeWf_iff _).mp h.wf 1
theorem hour_wf (h : c.Shows twelve t n) : hourWf (regRead c.regs rtcHour) = true := (timeWf_iff _).mp h.wf 2
theorem dow_wf (h : c.Shows twelve t n) : dowWf (regRead c.regs rtcDow) = true := (timeWf_iff _).mp h.wf 3
theorem date_wf (h : c.Shows twelve t n) : dateWf (regRead c.regs rtcDate) = true := (timeWf_iff _).mp h.wf 4
theorem month_wf (h : c.Shows twelve t n) : monthWf (regRead c.regs rtcMonth) = true := (timeWf_iff _).mp h.wf 5
theorem year_wf (h : c.Shows twelve t n) : yearWf (regRead c.regs rtcYear) = true := (timeWf_iff _).mp h.wf 6

/-! ### One register written -/

/-- A store of a well-formed byte that keeps the mode. -/
theorem store {t' : ClockTime} (h : c.Shows twelve t n) (j : Nat) (v : Byte) (hj : j < 8)
    (hmode : j = rtcHour → v.getLsbD 6 = twelve) (hv : fieldWf j v = true)
    (hclock : clockAt (Function.update (regRead c.regs) j v) = t') :
    ({ c with regs := regWrite c.regs j v } : Chain).Shows twelve t' n := by
  have hread := regRead_regWrite c.regs j v (hj.trans_le h.length)
  refine ⟨(length_regWrite _ _ _).symm ▸ h.length, ?_, ?_, timeWf_regWrite _ _ _ h.wf hv, h.draws⟩
  · rw [rtcTwelveHour, hread]
    by_cases hhour : rtcHour = j
    · rw [hhour, Function.update_self, hmode hhour.symm]
    · rw [Function.update_of_ne hhour]
      exact h.mode
  · rw [clockOf_eq_clockAt, hread, hclock]

/-- A number written into a field, `f` being the time it makes, anywhere but in the hours. -/
theorem setField (h : c.Shows twelve t n) (f : Nat → ClockTime) (j : Nat) (m : Byte) (v : Nat) (hj : j < 8)
    (hhour : j ≠ rtcHour) (hfits : Fits m v)
    (hwf : fieldWf j (withField (regRead c.regs j) m (bcdEnc v m)) = true)
    (hclock : ∀ w, clockAt (Function.update (regRead c.regs) j w) = f (bcdDec w m)) :
    (c.setField j m v).Shows twelve (f v) n :=
  h.store j _ hj (absurd · hhour) hwf ((hclock _).trans (congrArg f (bcdDec_withField _ m v hfits)))

theorem setSec (h : c.Shows twelve t n) (v : Nat) (hv : v ≤ 59) :
    (c.setField rtcSec maskSec v).Shows twelve { t with sec := v } n :=
  have hfits := fits_sixty v hv
  h.setField (fun x => { t with sec := x }) rtcSec maskSec v (by decide) (by decide) hfits
    (sixtyWf_withField _ _ v hfits hv) fun w => by rw [← h.clock]; rfl

theorem setMin (h : c.Shows twelve t n) (v : Nat) (hv : v ≤ 59) :
    (c.setField rtcMin maskMin v).Shows twelve { t with min := v } n :=
  have hfits := fits_sixty v hv
  h.setField (fun x => { t with min := x }) rtcMin maskMin v (by decide) (by decide) hfits
    (sixtyWf_withField _ _ v hfits hv) fun w => by rw [← h.clock]; rfl

theorem setDate (h : c.Shows twelve t n) (v : Nat) (hv : 1 ≤ v ∧ v ≤ 31) :
    (c.setField rtcDate maskDate v).Shows twelve { t with date := v } n :=
  have hfits := fits_date v hv.2
  h.setField (fun x => { t with date := x }) rtcDate maskDate v (by decide) (by decide) hfits
    (countedWf_withField _ _ v hfits _ hv) fun w => by rw [← h.clock]; rfl

theorem setMonth (h : c.Shows twelve t n) (v : Nat) (hv : 1 ≤ v ∧ v ≤ 12) :
    (c.setField rtcMonth maskMonth v).Shows twelve { t with month := v } n :=
  have hfits := fits_month v hv.2
  h.setField (fun x => { t with month := x }) rtcMonth maskMonth v (by decide) (by decide) hfits
    (countedWf_withField _ _ v hfits _ hv) fun w => by rw [← h.clock]; rfl

theorem setYear (h : c.Shows twelve t n) (v : Nat) (hv : v ≤ 99) :
    (c.setField rtcYear maskYear v).Shows twelve { t with year := v } n :=
  have hfits := fits_year v hv
  h.setField (fun x => { t with year := x }) rtcYear maskYear v (by decide) (by decide) hfits
    (yearWf_withField _ v hfits hv) fun w => by rw [← h.clock]; rfl

theorem setHour12 (h : c.Shows true t n) (v : Nat) (hv : 1 ≤ v ∧ v ≤ 12) :
    (c.setField rtcHour maskHour12 v).Shows true { t with hour := v } n := by
  have hfits := fits_hour12 v hv.2
  have hmode := (withField_flag (regRead c.regs rtcHour) maskHour12 (bcdEnc v maskHour12) 6 (by decide)
    (by decide)).trans h.mode
  have hpm := (withField_flag (regRead c.regs rtcHour) maskHour12 (bcdEnc v maskHour12) 5 (by decide)
    (by decide)).trans h.pm_eq
  refine h.store rtcHour _ (by decide) (fun _ => hmode) ?_ ?_
  · exact (if_pos hmode).trans (countedWf_withField _ _ v hfits 12 hv)
  · rw [clockAt_hour12 _ _ hmode, bcdDec_withField _ _ v hfits, hpm, ← clockOf_eq_clockAt, h.clock]

theorem setHour24 (h : c.Shows false t n) (v : Nat) (hv : v ≤ 23) :
    (c.setField rtcHour maskHour24 v).Shows false { t with hour := v } n := by
  have hfits := fits_hour24 v hv
  have hmode := (withField_flag (regRead c.regs rtcHour) maskHour24 (bcdEnc v maskHour24) 6 (by decide)
    (by decide)).trans h.mode
  have hwf : hourWf (withField (regRead c.regs rtcHour) maskHour24 (bcdEnc v maskHour24)) = true := by
    rw [hourWf, hmode, bcdDec_withField _ _ v hfits, onesWf_withField _ _ v hfits]
    exact decide_eq_true hv
  refine h.store rtcHour _ (by decide) (fun _ => hmode) hwf ?_
  rw [clockAt_hour24 _ _ hmode, bcdDec_withField _ _ v hfits, ← clockOf_eq_clockAt, h.clock, h.am_of_24]

/-- AM/PM toggled: the hours' other bits are kept (R16, R140). -/
theorem togglePm (h : c.Shows true t n) : c.togglePm.Shows true { t with pm := !t.pm } n := by
  have hbits : ∀ b : Byte, (b ^^^ rtcPmBit).getLsbD 6 = b.getLsbD 6 ∧ (b ^^^ rtcPmBit).getLsbD 5 = !b.getLsbD 5 ∧
      bcdDec (b ^^^ rtcPmBit) maskHour12 = bcdDec b maskHour12 ∧ onesWf (b ^^^ rtcPmBit) = onesWf b := by decide
  obtain ⟨hsix, hpm, hhour, hones⟩ := hbits (regRead c.regs rtcHour)
  have hmode : (regRead c.regs rtcHour).getLsbD 6 = true := h.mode
  have hwf : hourWf (regRead c.regs rtcHour ^^^ rtcPmBit) = hourWf (regRead c.regs rtcHour) := by
    simp only [hourWf, hsix, hhour, hones, hmode, if_true]
  refine h.store rtcHour _ (by decide) (fun _ => hsix.trans hmode) (hwf.trans h.hour_wf) ?_
  rw [clockAt_hour12 _ _ (hsix.trans hmode), hhour, hpm, h.hour12_eq, show (regRead c.regs rtcHour).getLsbD 5 = t.pm
    from h.pm_eq, ← clockOf_eq_clockAt, h.clock]

/-! ### The stages (R137 to R144) -/

/-- The next day of the week (R141). -/
theorem dayOfWeek (h : c.Shows twelve t n) :
    c.dayOfWeek.Shows twelve { t with dow := if 7 ≤ t.dow then 1 else t.dow + 1 } n := by
  generalize hd : (if 7 ≤ t.dow then 1 else t.dow + 1) = d
  have hrange : 1 ≤ d ∧ d ≤ 7 := by
    rw [← hd]
    split <;> omega
  have hread : dowOf ((regRead c.regs rtcDow &&& ~~~(0x07 : Byte)) ||| BitVec.ofNat 8 d) = d := by
    rw [← weekday_and_field d hrange.2, dowOf, merge_and_inside _ _ _ _ (by decide), weekday_and_field d hrange.2,
      BitVec.toNat_ofNat]
    omega
  have hwf : dowWf ((regRead c.regs rtcDow &&& ~~~(0x07 : Byte)) ||| BitVec.ofNat 8 d) = true := by
    rw [dowWf, hread]
    exact decide_eq_true hrange.1
  unfold Chain.dayOfWeek
  simp only [h.dow_wf, h.dow_eq, hd, if_true]
  refine h.store rtcDow _ (by decide) (absurd · (by decide)) hwf ?_
  rw [← h.clock]
  exact congrArg (fun x => { clockOf c.regs with dow := x }) hread

end Chain.Shows

/-- The next year of the century (R144). -/
def ClockTime.nextYear (t : ClockTime) : ClockTime := { t with year := (t.year + 1) % 100 }

/-- The next month (R143, R144). -/
def ClockTime.nextMonth (t : ClockTime) : ClockTime :=
  if t.month < 12 then { t with month := t.month + 1 } else ({ t with month := 1 } : ClockTime).nextYear

/-- The next date (R142). -/
def ClockTime.nextDate (r : DimRule) (t : ClockTime) : ClockTime :=
  if t.date < daysInMonth r t.month t.year then { t with date := t.date + 1 }
  else ({ t with date := 1 } : ClockTime).nextMonth

theorem nextDay_eq (r : DimRule) (t : ClockTime) :
    t.nextDay r = ({ t with dow := if 7 ≤ t.dow then 1 else t.dow + 1 } : ClockTime).nextDate r := rfl

theorem daysInMonth_le (r : DimRule) (mm yy : Nat) : daysInMonth r mm yy ≤ 31 := by
  cases r with
  | byTable => unfold daysInMonth; dsimp only; (repeat' split) <;> omega
  | custom offsets => unfold daysInMonth; dsimp only; omega

namespace Chain.Shows
variable {twelve : Bool} {t : ClockTime} {n : Nat} {c : Chain}

theorem year (h : c.Shows twelve t n) (carry : Bool) :
    (c.year carry).Shows twelve (if carry then t.nextYear else t) n := by
  unfold Chain.year
  simp only [h.year_wf, h.year_eq, if_true]
  cases carry with
  | false => exact h
  | true => exact h.setYear _ (by omega)

theorem month (h : c.Shows twelve t n) (carry : Bool) :
    (c.month carry).Shows twelve (if carry then t.nextMonth else t) n := by
  unfold Chain.month ClockTime.nextMonth
  simp only [h.month_wf, h.month_eq, if_true]
  cases carry with
  | false => exact h.year false
  | true =>
    simp only [if_true]
    split
    · exact (h.setMonth _ (by omega)).year false
    · exact (h.setMonth 1 (by omega)).year true

theorem date (h : c.Shows twelve t n) (cfg : Config) : (c.date cfg).Shows twelve (t.nextDate cfg.rtcDim) n := by
  have hlength : c.monthLength cfg = (daysInMonth cfg.rtcDim t.month t.year, false) := by
    simp only [Chain.monthLength, h.month_wf, h.year_wf, h.month_eq, h.year_eq, Bool.and_self, if_true]
  have hle := daysInMonth_le cfg.rtcDim t.month t.year
  unfold Chain.date ClockTime.nextDate
  simp only [hlength, h.date_wf, h.date_eq, if_true, Bool.false_eq_true, if_false]
  split
  · exact (h.setDate _ (by omega)).month false
  · exact (h.setDate 1 (by omega)).month true

theorem newDay (h : c.Shows twelve t n) (cfg : Config) : (c.newDay cfg).Shows twelve (t.nextDay cfg.rtcDim) n :=
  nextDay_eq cfg.rtcDim t ▸ h.dayOfWeek.date cfg

theorem newDayIfAm (h : c.Shows true t n) (cfg : Config) :
    (c.newDayIfAm cfg).Shows true (if t.pm then t else t.nextDay cfg.rtcDim) n := by
  rw [Chain.newDayIfAm, h.pm_eq]
  split
  · exact h
  · exact h.newDay cfg

/-- The hour boundary of a 12-hour clock: AM/PM toggles, and AM is a new day (R140). -/
theorem halfDay (h : c.Shows true t n) (cfg : Config) (v : Nat) (hv : 1 ≤ v ∧ v ≤ 12) :
    (((c.setField rtcHour maskHour12 v).togglePm).newDayIfAm cfg).Shows true
      (if t.pm then ({ t with hour := v, pm := false } : ClockTime).nextDay cfg.rtcDim
       else { t with hour := v, pm := true }) n := by
  have hday := (h.setHour12 v hv).togglePm.newDayIfAm cfg
  cases hpm : t.pm with
  | true => simpa [hpm] using hday
  | false => simpa [hpm] using hday

theorem hour_le (h : c.Shows true t n) : t.hour ≤ 12 := by
  have hwf := h.hour_wf
  simp only [hourWf, show (regRead c.regs rtcHour).getLsbD 6 = true from h.mode, if_true, h.hour12_eq, Bool.and_eq_true,
    decide_eq_true_eq] at hwf
  exact hwf.2

theorem hours12 (h : c.Shows true t n) (cfg : Config) : (c.hours12 cfg).Shows true (t.nextHour cfg true) n := by
  have hle := h.hour_le
  unfold Chain.hours12 ClockTime.nextHour
  simp only [h.hour12_eq, if_true]
  cases cfg.rtcPmToggle with
  | atRollover =>
    dsimp only
    split
    · exact h.setHour12 _ (by omega)
    · exact h.halfDay cfg 1 (by omega)
  | at11To12 =>
    dsimp only
    split
    · exact h.halfDay cfg 12 (by omega)
    · split
      · exact h.setHour12 1 (by omega)
      · exact h.setHour12 _ (by omega)

theorem hours24 (h : c.Shows false t n) (cfg : Config) : (c.hours24 cfg).Shows false (t.nextHour cfg false) n := by
  unfold Chain.hours24 ClockTime.nextHour
  simp only [h.hour24_eq, Bool.false_eq_true, if_false]
  split
  · exact h.setHour24 _ (by omega)
  · exact (h.setHour24 0 (by omega)).newDay cfg

theorem hours (h : c.Shows twelve t n) (cfg : Config) : (c.hours cfg).Shows twelve (t.nextHour cfg twelve) n := by
  have hmode : (regRead c.regs rtcHour).getLsbD 6 = twelve := h.mode
  unfold Chain.hours
  simp only [h.hour_wf, hmode, if_true]
  cases twelve with
  | true => exact h.hours12 cfg
  | false => exact h.hours24 cfg

/-- Where the seconds have just gone to 0 (R137, R138). -/
theorem minutes (h : c.Shows twelve t n) (cfg : Config) :
    (c.minutes cfg).Shows twelve
      (if t.min < 59 then { t with min := t.min + 1 }
       else ({ t with min := 0 } : ClockTime).nextHour cfg twelve) n := by
  unfold Chain.minutes
  simp only [h.min_wf, h.min_eq, if_true]
  split
  · exact h.setMin _ (by omega)
  · exact (h.setMin 0 (by omega)).hours cfg

theorem seconds (h : c.Shows twelve t n) (cfg : Config) :
    (c.seconds cfg).Shows twelve (t.nextSecond cfg twelve) n := by
  unfold Chain.seconds ClockTime.nextSecond
  simp only [h.sec_wf, h.sec_eq, if_true]
  split
  · exact h.setSec _ (by omega)
  · exact (h.setSec 0 (by omega)).minutes cfg

end Chain.Shows

/-- Settles O46: the chain shows the next time stage by stage, and every stage writes inside its field only. -/
theorem secondIsTheNextOnTheClock : Obligations.SecondIsTheNextOnTheClock := by
  intro cfg regs n hlength hwf c hc
  have hstart : Chain.Shows (rtcTwelveHour regs) (clockOf regs) n { regs := regs, draws := n } :=
    ⟨hlength, rfl, rfl, hwf, rfl⟩
  have hend := hstart.seconds cfg
  have hsame := seconds_length cfg { regs := regs, draws := n }
  have habove := seconds_getElem? cfg { regs := regs, draws := n }
  have hkept := (seconds_carries cfg { regs := regs, draws := n }).keeps_outside_fields
  rw [← hc] at hend hsame habove hkept
  exact ⟨hend.clock, hend.wf, hend.draws, hsame, habove, hkept⟩

end Sys2Proof.Machine
end

section
/-! PROOFS. The tick of the clock: the oscillator, the second and the square wave (R135, R147, R149, R272, R274). -/

namespace Sys2Proof.Machine

/-! ## What a tick does to the RTC -/

theorem rtcTick_halted (env : Env) (d : Rtc) (h : rtcHalted d.core.regs = true) : rtcTick env d = (d, []) := if_pos h

/-- Before the counter wraps (R135). -/
theorem rtcTick_within (env : Env) (d : Rtc) (h : rtcHalted d.core.regs = false) (hosc : d.osc + 1 ≠ 0) :
    rtcTick env d = rtcSquareWave env.cfg { d with osc := d.osc + 1 } := by
  simp only [rtcTick, h, hosc, Bool.false_eq_true, if_false, List.nil_append]

/-- The RTC after `RtcSecond()` at the wrap of the counter (R135). -/
def Rtc.afterSecond (env : Env) (d : Rtc) : Rtc :=
  { d with core := { d.core with regs := (Chain.seconds env.cfg { regs := d.core.regs, draws := env.draws }).regs },
           osc := 0 }

/-- The free values the second draws are counted (R146, log 13). -/
theorem rtcTick_wrap (env : Env) (d : Rtc) (h : rtcHalted d.core.regs = false) (hosc : d.osc + 1 = 0) :
    rtcTick env d =
      ((rtcSquareWave env.cfg (d.afterSecond env)).1,
       .drew ((Chain.seconds env.cfg { regs := d.core.regs, draws := env.draws }).draws - env.draws) ::
         (rtcSquareWave env.cfg (d.afterSecond env)).2) := by
  simp only [rtcTick, h, hosc, Bool.false_eq_true, if_false, if_true]
  rfl

/-- The square wave takes a new level, with its pin, or nothing changes (R147). -/
theorem rtcSquareWave_eq (cfg : Config) (d : Rtc) (lvl : Bool)
    (hlvl : lvl = d.osc.getLsbD (cfg.rtcSqwBit.getD (rtcRate d.core.regs) 0)) :
    rtcSquareWave cfg d =
      if rtcSquareEnabled d.core.regs = true ∧ lvl ≠ d.sqwLevel then
        ({ d with sqwLevel := lvl, sqwPin := lvl }, [.pin .sqw lvl])
      else (d, []) := by
  subst hlvl
  unfold rtcSquareWave
  by_cases henabled : rtcSquareEnabled d.core.regs = true
  · simp only [henabled, if_true, true_and, ne_eq, ite_not]
  · rw [if_neg henabled, if_neg fun h => henabled h.1]

theorem rtcSquareWave_core (cfg : Config) (d : Rtc) : (rtcSquareWave cfg d).1.core = d.core := by
  rw [rtcSquareWave_eq cfg d _ rfl]
  split <;> rfl

theorem rtcSquareWave_osc (cfg : Config) (d : Rtc) : (rtcSquareWave cfg d).1.osc = d.osc := by
  rw [rtcSquareWave_eq cfg d _ rfl]
  split <;> rfl

/-! ## The flags a second keeps -/

/-- `RTC_CH` is outside the field of the seconds (R16, R136). -/
theorem seconds_halted (cfg : Config) (c : Chain) : rtcHalted (c.seconds cfg).regs = rtcHalted c.regs := by
  have hbit (b : Byte) : b.getLsbD 7 = (b &&& keptBits rtcSec).getLsbD 7 := by
    rw [BitVec.getLsbD_and, show (keptBits rtcSec).getLsbD 7 = true from rfl, Bool.and_true]
  rw [rtcHalted, hbit, (seconds_carries cfg c).kept, ← hbit, rtcHalted]

theorem seconds_squareEnabled (cfg : Config) (c : Chain) :
    rtcSquareEnabled (c.seconds cfg).regs = rtcSquareEnabled c.regs := by
  unfold rtcSquareEnabled regRead
  rw [List.getD_eq_getElem?_getD, seconds_getElem? cfg c rtcCtrl (by decide), ← List.getD_eq_getElem?_getD]

/-! ## The step that fires a due tick (R272, R274) -/

theorem callback_tick (s : State) (act : PendingAction) (dev : Device) (d : Rtc) (hpayload : act.payload = .rtcTick)
    (hlive : liveAt s act.owner dev) (hst : dev.st = .rtc d) :
    s.callback act = s.react act.owner dev (.done (.rtc (rtcTick s.env d).1) (rtcTick s.env d).2) := by
  simp only [State.callback, show s.liveDevice? act.owner = some dev from hlive, hpayload, hst]

/-- The recurring action is put back one period later and the RTC ticks. -/
theorem step_fire_tick (s u : State) (dev : Device) (d : Rtc) (act : PendingAction) (p : Nat) (rest : List HostEvent)
    (hab : s.aborted = none) (hin : s.inbox = .fire act.id :: rest)
    (hfind : s.pending.find? (fun x => x.id == act.id) = some act) (hdue : act.fireAt ≤ s.now)
    (hfirst : ∀ x ∈ s.pending, act.fireAt ≤ x.fireAt) (hpayload : act.payload = .rtcTick)
    (hperiodic : act.periodic = some p) (hlive : liveAt s act.owner dev) (hst : dev.st = .rtc d)
    (hu : u = { s with inbox := rest, pending := s.pending.map (fun x =>
        if x.id = act.id then { x with fireAt := x.fireAt + p } else x) }) :
    step s = .next (u.react act.owner dev (.done (.rtc (rtcTick s.env d).1) (rtcTick s.env d).2)) := by
  have htaken : ({ s with inbox := rest } : State).takeAction act = u := by
    simp only [State.takeAction, afterFiring, hperiodic, hu]
  have hlive' : liveAt u act.owner dev := hu ▸ hlive
  have henv : u.env = s.env := by rw [hu]; rfl
  rw [step_fire_due s act rest hab hin hfind hdue hfirst, htaken, callback_tick u act dev d hpayload hlive' hst, henv]

/-- Settles O45: halted, before the wrap of the counter, and at the wrap. -/
theorem tickOfTheClock : Obligations.TickOfTheClock := by
  intro s dev d act p rest hab hin hfind hdue hfirst hpayload hperiodic hlive hst u hu
  have hstep := step_fire_tick s u dev d act p rest hab hin hfind hdue hfirst hpayload hperiodic hlive hst hu
  have hlive' : liveAt u act.owner dev := hu ▸ hlive
  have htrace : u.trace = s.trace := by rw [hu]
  have hdraws : u.draws = s.draws := by rw [hu]
  refine ⟨fun hhalted => ?_, fun hrun hosc lvl hlvl => ?_, fun hrun hosc c hc => ?_⟩
  · rw [hstep, rtcTick_halted s.env d hhalted, ← hst]
    exact congrArg Host.Outcome.next (withDevice_same u act.owner dev hlive')
  · have hwrap : d.osc + 1 ≠ 0 := by bv_omega
    rw [hstep, rtcTick_within s.env d hrun hwrap, rtcSquareWave_eq s.env.cfg _ lvl hlvl, ← htrace]
    dsimp only
    split <;> rfl
  · have hwrap : d.osc + 1 = 0 := by rw [hosc]; rfl
    have hle : s.draws ≤ c.draws := hc ▸ (seconds_carries s.cfg { regs := d.core.regs, draws := s.draws }).draws
    have hcount : c.draws = u.draws + (c.draws - s.draws) := by omega
    have hafter : d.afterSecond s.env = { d with core := { d.core with regs := c.regs }, osc := 0 } := by
      rw [hc]; rfl
    have hfall : rtcSquareEnabled c.regs = true ∧ false ≠ d.sqwLevel ↔
        rtcSquareEnabled d.core.regs = true ∧ d.sqwLevel = true := by
      rw [hc, seconds_squareEnabled, ne_comm, ne_eq, Bool.not_eq_false]
    rw [hstep, rtcTick_wrap s.env d hrun hwrap, hafter, rtcSquareWave_eq s.env.cfg _ false BitVec.getLsbD_zero.symm,
      ← htrace, hcount, show Chain.seconds s.env.cfg { regs := d.core.regs, draws := s.env.draws } = c from hc.symm]
    simp only [hfall]
    split <;> rfl

/-! ## A whole second of ticks (R149) -/

theorem rtcTicks_add (env : Env) (m n : Nat) (d : Rtc) :
    rtcTicks env (m + n) d = rtcTicks env n (rtcTicks env m d) := by
  induction m generalizing d with
  | zero => rw [Nat.zero_add, rtcTicks]
  | succ m ih => rw [Nat.succ_add, rtcTicks, rtcTicks, ih]

theorem rtcTicks_halted (env : Env) (d : Rtc) (h : rtcHalted d.core.regs = true) (n : Nat) : rtcTicks env n d = d := by
  induction n with
  | zero => rfl
  | succ n ih => rw [rtcTicks, rtcTick_halted env d h, ih]

/-- Ticks that do not wrap the counter only count. -/
theorem rtcTicks_within (env : Env) (n : Nat) (d : Rtc) (h : rtcHalted d.core.regs = false)
    (hn : d.osc.toNat + n < 32768) :
    (rtcTicks env n d).core = d.core ∧ (rtcTicks env n d).osc.toNat = d.osc.toNat + n := by
  induction n generalizing d with
  | zero => exact ⟨rfl, rfl⟩
  | succ n ih =>
    have hosc : (d.osc + 1).toNat = d.osc.toNat + 1 := by bv_omega
    have hwrap : d.osc + 1 ≠ 0 := by bv_omega
    have hcore' : (rtcTick env d).1.core = d.core := by rw [rtcTick_within env d h hwrap, rtcSquareWave_core]
    have hosc' : (rtcTick env d).1.osc.toNat = d.osc.toNat + 1 := by
      rw [rtcTick_within env d h hwrap, rtcSquareWave_osc, hosc]
    obtain ⟨hcore, hcount⟩ := ih (rtcTick env d).1 (hcore' ▸ h) (by omega)
    exact ⟨hcore.trans hcore', by rw [rtcTicks, hcount, hosc']; omega⟩

/-- The ticks up to the wrap, the tick that wraps and runs the second, and the ticks back to where the counter was. -/
theorem rtcTicks_second (env : Env) (d : Rtc) (h : rtcHalted d.core.regs = false) :
    (rtcTicks env 32768 d).osc = d.osc ∧ (rtcTicks env 32768 d).core = (d.afterSecond env).core := by
  have hsplit : 32768 = (32767 - d.osc.toNat) + (1 + d.osc.toNat) := by omega
  obtain ⟨hcore, hosc⟩ := rtcTicks_within env (32767 - d.osc.toNat) d h (by omega)
  rw [hsplit, rtcTicks_add, rtcTicks_add]
  generalize rtcTicks env (32767 - d.osc.toNat) d = before at hcore hosc
  have hwrap : before.osc + 1 = 0 := by bv_omega
  have htick := rtcTick_wrap env before (hcore ▸ h) hwrap
  have hcore' : (rtcTicks env 1 before).core = (d.afterSecond env).core := by
    rw [rtcTicks, rtcTicks, htick, rtcSquareWave_core, Rtc.afterSecond, hcore, Rtc.afterSecond]
  have hosc' : (rtcTicks env 1 before).osc = 0 := by
    rw [rtcTicks, rtcTicks, htick, rtcSquareWave_osc, Rtc.afterSecond]
  have hrun : rtcHalted (rtcTicks env 1 before).core.regs = false := by
    rw [hcore']
    exact (seconds_halted _ _).trans h
  obtain ⟨hcore'', hosc''⟩ := rtcTicks_within env d.osc.toNat (rtcTicks env 1 before) hrun (by rw [hosc']; simp; omega)
  refine ⟨BitVec.eq_of_toNat_eq ?_, hcore''.trans hcore'⟩
  rw [hosc'', hosc']
  simp

/-- Settles O48: one wrap in 32768 ticks; with `RTC_CH` set no tick does anything. -/
theorem oneSecondIs32768Ticks : Obligations.OneSecondIs32768Ticks :=
  fun env d _ => ⟨fun hrun _ => rtcTicks_second env d hrun, rtcTicks_halted env d⟩

end Sys2Proof.Machine
end

section
/-! PROOFS. The data bytes of the EEPROM, and that EE_DELAY is read by no step (R165, R166, R169). -/

namespace Sys2Proof.Machine

/-! ## A data byte written or read (R165, R166) -/

theorem eeprom_onWrite_beyond (cfg : Config) (m : BusMessage) (d : Eeprom) (p : Nat) (hphase : d.phase = .dataWrite)
    (hptr : d.ptr = some p) (hp : cfg.eeSize ≤ p) : d.onWrite cfg m = .raise .outOfRange (.index p) := by
  simp only [Eeprom.onWrite, hphase, hptr, Eeprom.onStore, if_pos hp]

theorem eeprom_onRead_below (cfg : Config) (m : BusMessage) (d : Eeprom) (p : Nat) (hphase : d.phase = .dataRead)
    (hptr : d.ptr = some p) (hp : p < cfg.eeSize) :
    d.onRead cfg m = .done { d with ptr := some (p + 1) } [ackWithByte (memRead d.buf p) m.ab] := by
  simp only [Eeprom.onRead, hphase, hptr, if_neg hp.not_ge]

theorem eeprom_onRead_beyond (cfg : Config) (m : BusMessage) (d : Eeprom) (p : Nat) (hphase : d.phase = .dataRead)
    (hptr : d.ptr = some p) (hp : cfg.eeSize ≤ p) : d.onRead cfg m = .raise .outOfRange (.index p) := by
  simp only [Eeprom.onRead, hphase, hptr, if_pos hp]

theorem respond_eeprom_read (env : Env) (dev : Device) (d : Eeprom) (v : Byte) (a : BusAddress) (rnw : Bool)
    (hacc : dev.accepts a = true) (hst : dev.st = .eeprom d) :
    dev.respond env (readMessage v a rnw) = (d.onRead env.cfg (readMessage v a rnw)).map .eeprom := by
  rw [respond_read env dev v a rnw hacc, hst]
  rfl

/-- Settles O25: the store and the fetch on either side of EE_SIZE, each as the delivery of its reaction. -/
theorem eepromTransfers : Obligations.EepromTransfers := by
  intro s k dev d v a rnw p haddr hst hptr
  obtain ⟨-, -, hacc, -⟩ := id haddr
  have hwrite := respond_eeprom_write s.env dev d v a rnw hacc hst
  have hread := respond_eeprom_read s.env dev d v a rnw hacc hst
  refine ⟨fun hphase hp => ?_, fun hphase hp => ?_, fun hphase hp => ?_, fun hphase hp => ?_⟩
  · rw [eeprom_onWrite_store s.env.cfg _ d p hphase hptr hp] at hwrite
    exact ⟨memWrite d.buf p v, exec_write_acked s k dev v a rnw _ haddr hwrite, memRead_write_same _ _ _,
      fun j hj => memRead_write_other _ _ _ _ hj⟩
  · rw [eeprom_onWrite_beyond s.env.cfg _ d p hphase hptr hp] at hwrite
    exact exec_write_raised s k dev v a rnw _ _ haddr hwrite
  · rw [eeprom_onRead_below s.env.cfg _ d p hphase hptr hp] at hread
    exact exec_read_answered s k dev v a rnw _ _ haddr hread
  · rw [eeprom_onRead_beyond s.env.cfg _ d p hphase hptr hp] at hread
    exact exec_read_raised s k dev v a rnw _ _ haddr hread

/-! ## Another EE_DELAY (R169)

The delay is replaced in the configuration, and the replacement is carried through what a handler reads, through the
shared operations and through every move of an agent. -/

def Env.withDelay (env : Env) (x : Nat) : Env := { env with cfg := { env.cfg with eeDelay := x } }

def State.withDelay (s : State) (x : Nat) : State := { s with cfg := { s.cfg with eeDelay := x } }

section
variable (s : State) (x : Nat)

@[simp] theorem withDelay_aborted : (s.withDelay x).aborted = s.aborted := rfl
@[simp] theorem withDelay_devices : (s.withDelay x).devices = s.devices := rfl
@[simp] theorem withDelay_pending : (s.withDelay x).pending = s.pending := rfl
@[simp] theorem withDelay_inbox : (s.withDelay x).inbox = s.inbox := rfl
@[simp] theorem withDelay_focus : (s.withDelay x).focus = s.focus := rfl
@[simp] theorem withDelay_env : (s.withDelay x).env = s.env.withDelay x := rfl
@[simp] theorem withDelay_liveDevice? (k : Nat) : (s.withDelay x).liveDevice? k = s.liveDevice? k := rfl
@[simp] theorem withDelay_mayFire (a : PendingAction) : (s.withDelay x).mayFire a = s.mayFire a := rfl

end

/-- The answer of a step with the delay of its next state replaced; a stop stays as it is. -/
def withDelayAfter (x : Nat) : Host.Outcome State Fault Refusal → Host.Outcome State Fault Refusal
  | .next t => .next (t.withDelay x)
  | .fault r => .fault r
  | .refused r => .refused r

/-- A change of state that neither reads nor writes the delay. -/
def DelayBlind (act : State → State) : Prop := ∀ (s : State) (x : Nat), act (s.withDelay x) = (act s).withDelay x

theorem DelayBlind.unlessAborted {act : State → State} (h : DelayBlind act) (s : State) (x : Nat) :
    (s.withDelay x).unlessAborted act = withDelayAfter x (s.unlessAborted act) := by
  unfold State.unlessAborted
  rw [withDelay_aborted]
  cases s.aborted with
  | none => exact congrArg Host.Outcome.next (h s x)
  | some r => rfl

/-! ### What the handlers read -/

/-- The adapter of a device of each kind (R91, R102). -/
theorem respond_withDelay (env : Env) (x : Nat) (m : BusMessage) (dev : Device) :
    dev.respond (env.withDelay x) m = dev.respond env m := by
  have hhandle : dev.st.handle (env.withDelay x) m = dev.st.handle env m := by
    cases dev.st with
    | rtc d | eeprom d | keypad d | led d | display d => rfl
  unfold Device.respond DevState.matched
  rw [hhandle]

theorem ScreenOp.withDelay {f : Env → Display → Display × List Effect} (h : ScreenOp f) (env : Env) (x : Nat)
    (d : Display) : f (env.withDelay x) d = f env d := by
  cases h with
  | instr i f h => cases i <;> cases h <;> rfl
  | unrecognized bytes => rfl

theorem KeyCall.withDelay {e : HostEvent} {k : Nat} {f : Env → Keypad → Keypad × List Effect} (h : KeyCall e k f)
    (env : Env) (x : Nat) (d : Keypad) : f (env.withDelay x) d = f env d := by
  cases h with
  | event | raw | pressAndRelease | pressAndReleaseCode => rfl

theorem rtcTick_withDelay (env : Env) (x : Nat) (d : Rtc) : rtcTick (env.withDelay x) d = rtcTick env d := rfl

/-! ### The shared operations -/

theorem perform_withDelay (s : State) (x k : Nat) (e : Effect) :
    (s.withDelay x).perform k e = (s.perform k e).withDelay x := by
  cases e with
  | reply | pin | log | cancel | schedule | drew => rfl

theorem react_withDelay (s : State) (x k : Nat) (dev : Device) (r : Reaction DevState) :
    (s.withDelay x).react k dev r = (s.react k dev r).withDelay x := by
  cases r with
  | done st es =>
    rw [react_done, react_done]
    exact List.foldl_hom (State.withDelay · x) (init := s.setDevice k { dev with st := st })
      fun t e => perform_withDelay t x k e
  | raise c info => rfl

theorem listenOut_delayBlind (m : BusMessage) : DelayBlind (State.listenOut · m) := by
  intro s x
  dsimp only [State.listenOut]
  split
  · rfl
  · split
    · rfl
    · split <;> rfl

theorem adapter_delayBlind (m : BusMessage) (k : Nat) : DelayBlind (State.adapter · m k) := by
  intro s x
  dsimp only [State.adapter]
  rw [withDelay_liveDevice?]
  cases s.liveDevice? k with
  | none => rfl
  | some dev =>
    dsimp only
    rw [withDelay_env, respond_withDelay, react_withDelay]

theorem subscriber_delayBlind (m : BusMessage) (k : Nat) : DelayBlind (State.subscriber m · k) := by
  intro s x
  dsimp only [State.subscriber]
  rw [withDelay_aborted, withDelay_devices]
  cases s.aborted with
  | some r => rfl
  | none =>
    dsimp only
    split
    · exact listenOut_delayBlind m s x
    · exact adapter_delayBlind m k s x

theorem deliver_delayBlind (m : BusMessage) : DelayBlind (State.deliver · m) := fun s x =>
  List.foldl_hom (g₁ := State.subscriber m) (State.withDelay · x) (init := { s with ab := m.ab })
    fun t k => subscriber_delayBlind m k t x

/-! ### The operations on one device -/

theorem onDisplay_delayBlind (f : Env → Display → Display × List Effect)
    (hf : ∀ env x d, f (Env.withDelay env x) d = f env d) : DelayBlind (State.onDisplay · f) := by
  intro s x
  dsimp only [State.onDisplay]
  rw [withDelay_env, withDelay_focus, withDelay_liveDevice?]
  split
  · split
    · rw [hf]
      exact react_withDelay s x _ _ _
    all_goals rfl
  · rfl

theorem onKeypad_delayBlind (k : Nat) (f : Env → Keypad → Keypad × List Effect)
    (hf : ∀ env x d, f (Env.withDelay env x) d = f env d) : DelayBlind (State.onKeypad · k f) := by
  intro s x
  dsimp only [State.onKeypad]
  rw [withDelay_env, withDelay_liveDevice?]
  split
  · split
    · rw [hf]
      exact react_withDelay s x _ _ _
    all_goals rfl
  · rfl

theorem ledSelectByte_delayBlind (b : Byte) : DelayBlind (State.ledSelectByte · b) := by
  intro s x
  dsimp only [State.ledSelectByte]
  rw [withDelay_focus, withDelay_liveDevice?]
  split
  · split
    · exact react_withDelay s x _ _ _
    all_goals rfl
  · rfl

theorem eeAddressBytes_delayBlind (hi lo : Byte) : DelayBlind (State.eeAddressBytes · hi lo) := by
  intro s x
  dsimp only [State.eeAddressBytes]
  rw [withDelay_focus, withDelay_liveDevice?]
  split
  · split
    · exact react_withDelay s x _ _ _
    all_goals rfl
  · rfl

/-! ### An encoded operation -/

theorem exec_withDelay (i : Instr) (s : State) (x : Nat) :
    exec i (s.withDelay x) = withDelayAfter x (exec i s) := by
  cases hscreen : Instr.onScreen? i with
  | some f =>
    rw [exec_onScreen i f _ hscreen, exec_onScreen i f _ hscreen]
    exact (onDisplay_delayBlind f (ScreenOp.instr i f hscreen).withDelay).unlessAborted s x
  | none =>
    cases i with
    | startW | startR | write | read | stop => exact (deliver_delayBlind _).unlessAborted s x
    | ack data address rnw =>
      exact DelayBlind.unlessAborted (act := (State.emitBusIn · (ackWord (addressByte address rnw))))
        (fun _ _ => rfl) s x
    | ackRead data address rnw =>
      exact DelayBlind.unlessAborted (act := (State.emitBusIn · (ackReadWord data (addressByte address rnw))))
        (fun _ _ => rfl) s x
    | ledctl => exact (ledSelectByte_delayBlind _).unlessAborted s x
    | eeaddr => exact (eeAddressBytes_delayBlind _ _).unlessAborted s x
    | bs | ht | lf | hom | clr | cr | print20 | print40 | print80 | escInit | usCursor | usMag | usImage | usScroll
    | usBlink | usWinSelect | usWinDefine => cases hscreen

theorem rejected_delayBlind (enc : Encoded) (why : Reject) : DelayBlind (State.rejected · enc why) := by
  cases enc with
  | busOut w => exact deliver_delayBlind (decodeMessage w)
  | stream bytes =>
    cases why with
    | unrecognized => exact onDisplay_delayBlind (fun _ d => (d, [.log bytes])) (ScreenOp.unrecognized bytes).withDelay
    | malformedMessage | notAReply | incomplete | trailing | ledSubRange => exact fun _ _ => rfl
  | ledSelect b => exact ledSelectByte_delayBlind b
  | busIn | eeAddress => exact fun _ _ => rfl

theorem run_withDelay (enc : Encoded) (s : State) (x : Nat) :
    (s.withDelay x).run enc = withDelayAfter x (s.run enc) := by
  unfold State.run
  split
  · exact exec_withDelay _ s x
  · exact (rejected_delayBlind enc _).unlessAborted s x

/-! ### The moves of the agents -/

theorem callback_delayBlind (a : PendingAction) : DelayBlind (State.callback · a) := by
  intro s x
  dsimp only [State.callback]
  rw [withDelay_liveDevice?]
  split
  · simp only [withDelay_env, rtcTick_withDelay]
    split
    · exact react_withDelay s x _ _ _
    · exact react_withDelay s x _ _ _
    · exact react_withDelay s x _ _ _
    · rfl
  · rfl

theorem fire_delayBlind (id : Nat) : DelayBlind (State.fire · id) := by
  intro s x
  dsimp only [State.fire]
  rw [withDelay_pending]
  split
  · rw [withDelay_mayFire]
    split
    · exact callback_delayBlind _ (s.takeAction _) x
    · rfl
  · rfl

theorem getCurrentState_delayBlind (k : Nat) : DelayBlind (State.getCurrentState · k) := by
  intro s x
  dsimp only [State.getCurrentState]
  rw [withDelay_liveDevice?]
  split
  · split
    · split <;> rfl
    all_goals rfl
  · rfl

theorem snapshot_delayBlind (k : Nat) : DelayBlind (State.snapshot · k) := by
  intro s x
  dsimp only [State.snapshot]
  rw [withDelay_liveDevice?]
  split
  · split <;> rfl
  · rfl

/-- A device is constructed from other fields of the configuration (R32). -/
theorem attach_delayBlind (spec : DeviceSpec) : DelayBlind (State.attach · spec) := by
  intro s x
  have hconstruct (b : Construction) :
      constructDevice (s.withDelay x).cfg s.now b spec = constructDevice s.cfg s.now b spec := by
    obtain ⟨kind, addrs⟩ := spec
    cases kind with
    | rtc | eeprom | keypad | led | display => rfl
  exact congrArg
    (fun b : Construction =>
      { s.withDelay x with devices := b.devices, pending := b.pending, nextId := b.nextId })
    (hconstruct { devices := s.devices, pending := s.pending, nextId := s.nextId })

theorem destroy_delayBlind (k : Nat) : DelayBlind (State.destroy · k) := by
  intro s x
  dsimp only [State.destroy]
  rw [withDelay_liveDevice?]
  split <;> rfl

theorem KeyCall.delayBlind {e : HostEvent} {k : Nat} {f : Env → Keypad → Keypad × List Effect} (h : KeyCall e k f) :
    DelayBlind (State.onKeypad · k f) := onKeypad_delayBlind k f h.withDelay

theorem event_withDelay (e : HostEvent) (s : State) (x : Nat) :
    (s.withDelay x).event e = withDelayAfter x (s.event e) := by
  cases e with
  | operation order focus enc => exact run_withDelay enc { s with order := order, focus := focus } x
  | advance cycles =>
    exact DelayBlind.unlessAborted (act := (State.advance · cycles)) (fun _ _ => rfl) s x
  | fire id => exact (fire_delayBlind id).unlessAborted s x
  | addKeyEvent k press row col => exact (KeyCall.event k press row col).delayBlind.unlessAborted s x
  | addKeyRawEvent k b => exact (KeyCall.raw k b).delayBlind.unlessAborted s x
  | addKeyPressAndRelease k row col => exact (KeyCall.pressAndRelease k row col).delayBlind.unlessAborted s x
  | addKeyPressAndReleaseCode k code => exact (KeyCall.pressAndReleaseCode k code).delayBlind.unlessAborted s x
  | getCurrentState k => exact (getCurrentState_delayBlind k).unlessAborted s x
  | getFinishedMessages =>
    exact DelayBlind.unlessAborted (act := State.getFinishedMessages) (fun _ _ => rfl) s x
  | snapshot k => exact (snapshot_delayBlind k).unlessAborted s x
  | registerOnComplete callback =>
    exact DelayBlind.unlessAborted (act := fun t => { t with onComplete := some callback }) (fun _ _ => rfl) s x
  | attach spec => exact (attach_delayBlind spec).unlessAborted s x
  | destroy k => exact (destroy_delayBlind k).unlessAborted s x

theorem step_withDelay (s : State) (x : Nat) : step (s.withDelay x) = withDelayAfter x (step s) := by
  cases hin : s.inbox with
  | nil =>
    simp only [step, State.stepOnce, withDelay_inbox, hin]
    exact DelayBlind.unlessAborted (act := id) (fun _ _ => rfl) s x
  | cons e rest =>
    rw [step_cons s e rest hin, step_cons (s.withDelay x) e rest hin]
    exact event_withDelay e { s with inbox := rest } x

/-- Settles O32: each move, and a wait, neither reads nor writes the delay. -/
theorem eepromDelayHasNoEffect : Obligations.EepromDelayHasNoEffect := step_withDelay

end Sys2Proof.Machine
end

section
/-! PROOFS. The keypad's interrupt acknowledge, its raw key events, and a press with its release (R181, R183, R188). -/

namespace Sys2Proof.Machine

/-! ## The interrupt acknowledge (R188) -/

/-- Settles O21: the register write at the interrupt status is the acknowledge. -/
theorem keypadInterruptAcknowledge : Obligations.KeypadInterruptAcknowledge := keypad_writeReg_status

/-! ## A raw key event (R181) -/

/-- The register file with event `b` queued: the count goes up and the lowest free slot takes the event. -/
def eventQueued (regs : List Byte) (b : Byte) : List Byte :=
  regWrite (regWrite regs kpKeyLckEc (kpWithCount regs (kpCount regs + 1))) (kpKeyEventA + kpCount regs) b

/-- A queued event leaves the registers below the count alone. -/
theorem regRead_eventQueued_low (regs : List Byte) (b : Byte) (j : Nat) (hj : j < kpKeyLckEc) :
    regRead (eventQueued regs b) j = regRead regs j := by
  have hslot : kpKeyEventA + kpCount regs ≠ j := by
    unfold kpKeyLckEc at hj
    unfold kpKeyEventA
    omega
  rw [eventQueued, regRead_regWrite_other _ _ _ _ hslot, regRead_regWrite_other _ _ _ _ hj.ne']

theorem keyEventCode_eq_zero (b : Byte) : keyEventCode b = 0 ↔ b.extractLsb' 0 7 = 0 :=
  BitVec.toNat_inj (y := (0 : BitVec 7))

/-- A raw event is refused, dropped, queued with the line taken low, or queued silently. Interrupts are enabled after
it exactly if they were before. -/
theorem addRawEvent_eq (d : Keypad) (b : Byte) :
    d.addRawEvent b =
      if b.extractLsb' 0 7 = 0 then (d, [])
      else if kpFifoCap ≤ kpCount d.core.regs then ({ d with overflow := true }, [])
      else if kpInterruptEnabled d.core.regs then
        ({ d with
           core := { d.core with
             regs := regWrite (eventQueued d.core.regs b) kpIntStat (regRead d.core.regs kpIntStat ||| 0x01) }
           unacked := d.unacked ||| 0x01
           intN := false }, [.pin .intN false])
      else ({ d with core := { d.core with regs := eventQueued d.core.regs b } }, []) := by
  have henabled : kpInterruptEnabled (eventQueued d.core.regs b) = kpInterruptEnabled d.core.regs := by
    rw [kpInterruptEnabled, regRead_eventQueued_low _ _ _ (by decide), kpInterruptEnabled]
  have hstatus := regRead_eventQueued_low d.core.regs b kpIntStat (by decide)
  simp only [Keypad.addRawEvent, keyEventCode_eq_zero, ← henabled, ← hstatus]
  rfl

/-- The step that takes a move, at an unaborted state. -/
theorem step_move (s : State) (e : HostEvent) (rest : List HostEvent) (act : State → State) (hab : s.aborted = none)
    (hin : s.inbox = e :: rest) (he : ∀ u : State, u.event e = u.unlessAborted act) :
    step s = .next (act { s with inbox := rest }) := by
  rw [step_cons s e rest hin, he]
  exact unlessAborted_of_none { s with inbox := rest } act hab

/-- A live keypad's step on a raw event. -/
theorem step_rawEvent_live (s : State) (k : Nat) (dev : Device) (d : Keypad) (b : Byte) (rest : List HostEvent)
    (hab : s.aborted = none) (hin : s.inbox = .addKeyRawEvent k b :: rest) (hlive : liveAt s k dev)
    (hst : dev.st = .keypad d) :
    step s = .next (({ s with inbox := rest } : State).react k dev
      (.done (.keypad (d.addRawEvent b).1) (d.addRawEvent b).2)) := by
  rw [step_move s _ rest (fun u => u.onKeypad k fun _ d => d.addRawEvent b) hab hin fun _ => rfl,
    onKeypad_live { s with inbox := rest } k dev d _ hlive hst]

/-- Settles O49: the four branches of a raw event, each as the keypad's reaction carried out. -/
theorem keyEventQueued : Obligations.KeyEventQueued := by
  rintro s k dev d b n rest hab hin hlive hst rfl _ rfl _ rfl
  rw [step_rawEvent_live s k dev d b rest hab hin hlive hst, addRawEvent_eq]
  refine ⟨fun hcode => ?_, fun hcode hfull => ?_, fun hcode hroom hoff => ?_, fun hcode hroom hon => ?_⟩
  · rw [if_pos hcode, ← hst]
    exact congrArg _ (withDevice_same { s with inbox := rest } k dev hlive)
  · rw [if_neg hcode, if_pos (show kpFifoCap ≤ _ from hfull)]
    rfl
  · rw [if_neg hcode, if_neg (show ¬ kpFifoCap ≤ _ from hroom.not_ge), if_neg (by simp [hoff])]
    rfl
  · rw [if_neg hcode, if_neg (show ¬ kpFifoCap ≤ _ from hroom.not_ge), if_pos hon]
    rfl

/-! ## A press and its release (R183) -/

/-- All a key event can ask for is the interrupt line taken low. -/
theorem addEvent_effects (cfg : Config) (d : Keypad) (press : Bool) (row col : Nat) :
    (d.addEvent cfg press row col).2 = [] ∨ (d.addEvent cfg press row col).2 = [.pin .intN false] := by
  unfold Keypad.addEvent
  split
  · rw [addRawEvent_eq]
    split_ifs <;> simp
  · exact .inl rfl

/-- A key event neither reads nor writes the handles on pending releases. -/
theorem addEvent_withReleases (cfg : Config) (d : Keypad) (press : Bool) (row col : Nat)
    (releases : List (Nat × Nat)) :
    ({ d with pendingRelease := releases } : Keypad).addEvent cfg press row col =
      ({ (d.addEvent cfg press row col).1 with pendingRelease := releases }, (d.addEvent cfg press row col).2) := by
  unfold Keypad.addEvent
  split
  · rw [addRawEvent_eq, addRawEvent_eq]
    dsimp only
    split_ifs <;> rfl
  · rfl

/-- The effects of a press with its release: those of the press, and the timed actions with the old release, if any,
cancelled and the new one scheduled. -/
theorem foldl_perform_pressAndRelease (s : State) (k : Nat) (old : Option Nat) (es : List Effect) (delayUs : Nat)
    (p : Payload) (hes : es = [] ∨ es = [.pin .intN false]) :
    (old.toList.map Effect.cancel ++ es ++ [Effect.schedule delayUs p]).foldl (State.perform k) s =
      { es.foldl (State.perform k) s with
        pending := s.pending.filter (fun x => decide (old ≠ some x.id)) ++
          [{ id := s.nextId, owner := k, fireAt := s.now + delayUs * s.cfg.cyclesPerUs, payload := p, periodic := none }]
        nextId := s.nextId + 1 } := by
  have hcancel : (old.toList.map Effect.cancel).foldl (State.perform k) s =
      { s with pending := s.pending.filter (fun x => decide (old ≠ some x.id)) } := by
    cases old with
    | none => simp
    | some id => simp [State.perform, State.cancel, bne, Bool.beq_eq_decide_eq, eq_comm]
  rw [List.foldl_append, List.foldl_append, hcancel]
  rcases hes with rfl | rfl <;> rfl

/-- A press with its release does to the block what the press does, but for the handles of the keypad and the timed
actions. -/
theorem onKeypad_pressAndRelease (s : State) (k : Nat) (dev : Device) (d : Keypad) (row col : Nat)
    (hlive : liveAt s k dev) (hst : dev.st = .keypad d) (hkey : keyExists s.cfg row col = true) :
    s.onKeypad k (fun env d => d.pressAndRelease env row col) =
      { s.onKeypad k (fun env d => d.addEvent env.cfg true row col) with
        devices := s.devices.set k { dev with st := .keypad { (d.addEvent s.cfg true row col).1 with
          pendingRelease := mapInsert (mapErase d.pendingRelease (keyCode row col)) (keyCode row col) s.nextId } }
        pending := s.pending.filter (fun x => decide (mapFind? d.pendingRelease (keyCode row col) ≠ some x.id)) ++
          [{ id := s.nextId, owner := k, fireAt := s.now + s.cfg.kpReleaseDelayUs * s.cfg.cyclesPerUs,
             payload := .keyRelease (keyCode row col), periodic := none }]
        nextId := s.nextId + 1 } := by
  have heffects := addEvent_effects s.cfg d true row col
  rw [onKeypad_live s k dev d _ hlive hst, onKeypad_live s k dev d _ hlive hst, env_cfg,
    pressAndRelease_eq s.env d row col hkey, Keypad.dropRelease, addEvent_withReleases, env_cfg, react_done, react_done,
    foldl_perform_pressAndRelease _ k _ _ _ _ heffects]
  rcases heffects with h | h <;> rw [h] <;> rfl

/-- Settles O51: both calls as one operation on the keypad, which differ in the handles and the timed actions. -/
theorem pressAndReleaseSchedulesOneRelease : Obligations.PressAndReleaseSchedulesOneRelease := by
  rintro s k dev d row col _ rest hab hin hlive hst hrow hcol rfl
  have hkey : keyExists s.cfg row col = true := by simp [keyExists, hrow, hcol]
  have hpress := onKeypad_live { s with inbox := rest } k dev d (fun env d => d.addEvent env.cfg true row col) hlive hst
  have hboth := onKeypad_pressAndRelease { s with inbox := rest } k dev d row col hlive hst hkey
  have hstep := step_move s _ rest (fun u => u.onKeypad k fun env d => d.pressAndRelease env row col) hab hin
    fun _ => rfl
  refine ⟨_, _, { (d.addEvent s.cfg true row col).1 with
      pendingRelease := mapInsert (mapErase d.pendingRelease (keyCode row col)) (keyCode row col) s.nextId },
    (d.addEvent s.cfg true row col).1, hstep.trans (congrArg _ hboth),
    step_addKeyEvent _ k true row col rest hab rfl, rfl, ?_, rfl, mapFind?_insert_same _ _ _, fun c hc => ?_, rfl, rfl,
    rfl, rfl, rfl, ?_⟩
  · rw [hpress, react_done, performAll_devices]
    rfl
  · exact (mapFind?_insert_other _ _ _ _ hc).trans (mapFind?_erase_other _ _ _ hc)
  · dsimp only
    rw [hpress, react_done, performAll_aborted]
    exact hab

end Sys2Proof.Machine
end

section
/-! PROOFS. A destroyed device is gone: its timed actions are cancelled, and nothing reaches it any more (R185, R312). -/

namespace Sys2Proof.Machine

/-! ## The destruction -/

theorem destroy_live (s : State) (k : Nat) (dev : Device) (hlive : liveAt s k dev) :
    s.destroy k =
      { s.setDevice k { dev with live := false, st := dev.st.released } with
        pending := s.pending.filter (fun a => a.owner != k) } := by
  simp only [State.destroy, show s.liveDevice? k = some dev from hlive]

/-! ## What nothing reaches -/

/-- Every device that is not live in `s` is in `t` as it was. -/
def KeepsDead (s t : State) : Prop :=
  ∀ (k : Nat) (dev : Device), s.devices[k]? = some dev → dev.live = false → t.devices[k]? = some dev

theorem KeepsDead.of_devices_eq {s t : State} (h : t.devices = s.devices) : KeepsDead s t :=
  fun _ _ hdev _ => h ▸ hdev

theorem KeepsDead.refl (s : State) : KeepsDead s s := .of_devices_eq rfl

theorem KeepsDead.trans {s t u : State} (hst : KeepsDead s t) (htu : KeepsDead t u) : KeepsDead s u :=
  fun k dev hdev hdead => htu k dev (hst k dev hdev hdead) hdead

theorem KeepsDead.foldl {α : Type} (f : State → α → State) (hf : ∀ s x, KeepsDead s (f s x)) (l : List α) (s : State) :
    KeepsDead s (l.foldl f s) := by
  induction l generalizing s with
  | nil => exact .refl s
  | cons x l ih => exact (hf s x).trans (ih (f s x))

/-- A change at the position of a live device only. -/
theorem KeepsDead.of_live {s t : State} {k : Nat} {dev : Device} (hlive : liveAt s k dev)
    (hother : ∀ j, j ≠ k → t.devices[j]? = s.devices[j]?) : KeepsDead s t := by
  intro j old hold hdead
  obtain ⟨hdev, hl⟩ := (liveDevice?_eq_some s k dev).mp hlive
  have hjk : j ≠ k := by
    rintro rfl
    obtain rfl : dev = old := Option.some.inj (hdev.symm.trans hold)
    exact Bool.false_ne_true (hdead.symm.trans hl)
  exact (hother j hjk).trans hold

/-- The adapters, the operations on the device in focus, the harness calls and the timer all reach a device as a
reaction of a live one. -/
theorem react_keepsDead (s : State) (k : Nat) (dev : Device) (r : Reaction DevState) (hlive : liveAt s k dev) :
    KeepsDead s (s.react k dev r) :=
  .of_live hlive fun j hj => react_devices_other s k j dev r hj

theorem subscriber_keepsDead (m : BusMessage) (s : State) (k : Nat) : KeepsDead s (s.subscriber m k) := by
  rcases subscriber_cases s m k with h | h | h <;> rw [h]
  · exact .refl s
  · exact .of_devices_eq (listenOut_devices s m)
  · rcases adapter_cases s m k with h | ⟨dev, hlive, h⟩ <;> rw [h]
    · exact .refl s
    · exact react_keepsDead s k dev _ hlive

theorem deliver_keepsDead (s : State) (m : BusMessage) : KeepsDead s (s.deliver m) :=
  (KeepsDead.of_devices_eq (s := s) (t := { s with ab := m.ab }) rfl).trans (.foldl _ (subscriber_keepsDead m) _ _)

theorem ran_keepsDead (s t : State) (enc : Encoded) (h : Ran s enc t) : KeepsDead s t := by
  cases h with
  | delivered w => exact deliver_keepsDead s _
  | replied | ignored => exact .of_devices_eq rfl
  | onDisplay bytes f hf =>
    rcases onDisplay_cases s f with h | ⟨dev, d, hlive, -, h⟩ <;> rw [h]
    · exact .refl s
    · exact react_keepsDead s _ dev _ hlive
  | ledSelect b b' =>
    rcases ledSelectByte_cases s b' with h | ⟨dev, d, hlive, -, h⟩ <;> rw [h]
    · exact .refl s
    · exact react_keepsDead s _ dev _ hlive
  | eeAddress hi lo =>
    rcases eeAddressBytes_cases s hi lo with h | ⟨dev, d, hlive, -, h⟩ <;> rw [h]
    · exact .refl s
    · exact react_keepsDead s _ dev _ hlive

theorem fire_keepsDead (s : State) (id : Nat) : KeepsDead s (s.fire id) := by
  rcases fire_cases s id with h | ⟨a, -, -, -, h⟩ <;> rw [h]
  · exact .refl s
  · refine (KeepsDead.of_devices_eq (s := s) (t := s.takeAction a) rfl).trans ?_
    rcases callback_cases (s.takeAction a) a with ⟨h, -⟩ | ⟨dev, st, es, hlive, -, h⟩ <;> rw [h]
    · exact .refl _
    · exact react_keepsDead _ _ dev _ hlive

theorem onKeypad_keepsDead (s : State) (k : Nat) (f : Env → Keypad → Keypad × List Effect) :
    KeepsDead s (s.onKeypad k f) := by
  rcases onKeypad_cases s k f with h | ⟨dev, d, hlive, -, h⟩ <;> rw [h]
  · exact .refl s
  · exact react_keepsDead s k dev _ hlive

/-- Only a live device can be destroyed. -/
theorem destroy_keepsDead (s : State) (k : Nat) : KeepsDead s (s.destroy k) := by
  cases hlive : s.liveDevice? k with
  | none =>
    rw [State.destroy, hlive]
    exact .refl s
  | some dev =>
    rw [destroy_live s k dev hlive]
    exact .of_live hlive fun j hj => List.getElem?_set_ne hj.symm

theorem moved_keepsDead (s t : State) (e : HostEvent) (h : Moved s e t) : KeepsDead s t := by
  cases h with
  | operation order focus enc t hran => exact ran_keepsDead { s with order := order, focus := focus } t enc hran
  | advance | answered | raised | registered => exact .of_devices_eq rfl
  | fire id => exact fire_keepsDead s id
  | keyCall e k f hcall => exact onKeypad_keepsDead s k f
  | attached spec => exact fun k dev hdev _ => (attach_device_eq_some s spec k dev).mpr (.inl hdev)
  | destroyed k => exact destroy_keepsDead s k

theorem step_keepsDead (s t : State) (h : step s = .next t) : KeepsDead s t := by
  rcases step_cases s t h with rfl | ⟨e, rest, -, hmoved⟩
  · exact .refl t
  · exact moved_keepsDead { s with inbox := rest } t e hmoved

/-- Settles O56: the destruction's own step, and that no step reaches a device that is not live. -/
theorem destroyedDeviceIsGone : Obligations.DestroyedDeviceIsGone := by
  refine ⟨fun s k dev rest hab hin hlive => ?_, fun s t k dev hstep => step_keepsDead s t hstep k dev⟩
  have hstep := step_move s _ rest (State.destroy · k) hab hin fun _ => rfl
  rw [destroy_live { s with inbox := rest } k dev hlive] at hstep
  exact ⟨_, _, hstep, rfl, rfl, rfl, rfl, hab⟩

end Sys2Proof.Machine
end

section
/-! PROOFS. The LED driver's accessor: the sixteen duty bytes, or the abort at the lowest channel that has none
(R211, R212). -/

namespace Sys2Proof.Machine

/-! ## A channel's mode and its duty byte (R211) -/

theorem ledMode_toNat (regs : List Byte) (n : Nat) :
    (ledMode regs n).toNat = (regRead regs (0x14 + n / 4)).toNat / 2 ^ (2 * (n % 4)) % 4 := by
  rw [ledMode, ledModeBits, BitVec.extractLsb'_toNat, Nat.shiftRight_eq_div_pow]
  rfl

/-- A channel's duty by its mode as a number; a mode is below 4, so the last branch is 0b11. -/
theorem ledDuty_eq (regs : List Byte) (n : Nat) :
    ledDuty regs n =
      if (ledMode regs n).toNat = 3 then none
      else some (if (ledMode regs n).toNat = 0 then 0x00 else if (ledMode regs n).toNat = 1 then 0xFF
        else regRead regs (0x02 + n)) := by
  have hcases : ∀ m : BitVec 2, m = 0 ∨ m = 1 ∨ m = 2 ∨ m = 3 := by decide
  rw [ledDuty]
  obtain h | h | h | h := hcases (ledMode regs n) <;> rw [h] <;> rfl

theorem ledDuty_isNone (regs : List Byte) (n : Nat) : (ledDuty regs n).isNone ↔ (ledMode regs n).toNat = 3 := by
  rw [ledDuty_eq]
  split <;> simp [*]

/-! ## The sixteen channels (R212) -/

theorem ledCurrentState_ok (regs : List Byte) (h : ∀ n < 16, (ledMode regs n).toNat ≠ 3) :
    ledCurrentState regs = .ok ((List.range 16).map fun n =>
      if (ledMode regs n).toNat = 0 then 0x00 else if (ledMode regs n).toNat = 1 then 0xFF
      else regRead regs (0x02 + n)) := by
  have hnone : (List.range ledChannels).find? (fun n => (ledDuty regs n).isNone) = none :=
    List.find?_eq_none.mpr fun n hn => (ledDuty_isNone regs n).not.mpr (h n (List.mem_range.mp hn))
  rw [ledCurrentState, hnone]
  refine congrArg Except.ok (List.map_congr_left fun n hn => ?_)
  rw [ledDuty_eq, if_neg (h n (List.mem_range.mp hn)), Option.getD_some]

theorem ledCurrentState_error (regs : List Byte) (n : Nat) (hn : n < 16) (hmode : (ledMode regs n).toNat = 3)
    (hlow : ∀ m < n, (ledMode regs m).toNat ≠ 3) : ledCurrentState regs = .error n := by
  have hfirst : (List.range ledChannels).find? (fun n => (ledDuty regs n).isNone) = some n :=
    List.find?_range_eq_some.mpr ⟨(ledDuty_isNone regs n).mpr hmode, List.mem_range.mpr hn, fun m hm => by
      rw [Bool.not_eq_true', Bool.eq_false_iff]
      exact (ledDuty_isNone regs m).not.mpr (hlow m hm)⟩
  rw [ledCurrentState, hfirst]

/-! ## The accessor's step -/

theorem getCurrentState_ok (s : State) (k : Nat) (dev : Device) (d : Led) (out : List Byte) (hlive : liveAt s k dev)
    (hst : dev.st = .led d) (hout : ledCurrentState d.core.regs = .ok out) :
    s.getCurrentState k = { s with answers := s.answers ++ [.duty k out] } := by
  simp only [State.getCurrentState, show s.liveDevice? k = some dev from hlive, hst, hout]

theorem getCurrentState_error (s : State) (k : Nat) (dev : Device) (d : Led) (n : Nat) (hlive : liveAt s k dev)
    (hst : dev.st = .led d) (hout : ledCurrentState d.core.regs = .error n) :
    s.getCurrentState k = s.raiseFatal k .unimplemented (.feature n) := by
  simp only [State.getCurrentState, show s.liveDevice? k = some dev from hlive, hst, hout]

/-- Settles O55: the step is the accessor's, and what it answers is decided by the modes of the sixteen channels. -/
theorem ledDutyArray : Obligations.LedDutyArray := by
  intro s k dev d rest mode hab hin hlive hst hmode
  obtain rfl : mode = fun n => (ledMode d.core.regs n).toNat :=
    funext fun n => (hmode n).trans (ledMode_toNat d.core.regs n).symm
  rw [step_move s _ rest (State.getCurrentState · k) hab hin fun _ => rfl]
  refine ⟨fun hall => ?_, fun n hn hgroup hlow => ?_⟩
  · rw [getCurrentState_ok { s with inbox := rest } k dev d _ hlive hst (ledCurrentState_ok d.core.regs hall)]
  · rw [getCurrentState_error { s with inbox := rest } k dev d n hlive hst
      (ledCurrentState_error d.core.regs n hn hgroup hlow)]
    rfl

end Sys2Proof.Machine
end

section
/-! PROOFS. The display in focus: the cursor's control bytes, CLR and the multi-byte commands (R233 to R243), and that
only a drawing instruction or a byte on the bus changes a pixel (R54, R246). -/

namespace Sys2Proof.Machine

/-! ## An instruction on the display in focus -/

/-- A display instruction runs on the display in focus and carries out its effects there. -/
theorem exec_focused (i : Instr) (f : Env → Display → Display × List Effect) (s : State) (dev : Device) (d : Display)
    (hscreen : Instr.onScreen? i = some f) (h : focused s dev) (hst : dev.st = .display d) :
    exec i s = .next ((f s.env d).2.foldl (State.perform s.focus)
      (s.withDevice s.focus dev (.display (f s.env d).1))) := by
  obtain ⟨hab, hlive⟩ := h
  rw [exec_onScreen i f s hscreen, unlessAborted_of_none s _ hab, onDisplay_focused s dev d f hlive hst]

/-- An instruction without effects changes the display only. -/
theorem exec_focused_silent (i : Instr) (f : Env → Display → Display × List Effect) (s : State) (dev : Device)
    (d d' : Display) (hscreen : Instr.onScreen? i = some f) (h : focused s dev) (hst : dev.st = .display d)
    (hf : f s.env d = (d', [])) : exec i s = .next (s.withDevice s.focus dev (.display d')) := by
  rw [exec_focused i f s dev d hscreen h hst, hf]
  rfl

/-- An instruction that only logs changes the log only. -/
theorem exec_focused_logged (i : Instr) (f : Env → Display → Display × List Effect) (s : State) (dev : Device)
    (d : Display) (bytes : List Byte) (hscreen : Instr.onScreen? i = some f) (h : focused s dev)
    (hst : dev.st = .display d) (hf : f s.env d = (d, [.log bytes])) :
    exec i s = .next { s with dbglog := s.dbglog ++ [{ device := s.focus, bytes := bytes }] } := by
  rw [exec_focused i f s dev d hscreen h hst, hf, ← hst, withDevice_same s s.focus dev h.2]
  rfl

/-- Settles O30: each of the four bytes writes the cursor only. -/
theorem cursorControlBytes : Obligations.CursorControlBytes := by
  rintro s dev d _ _ hf hst rfl rfl
  exact ⟨exec_focused_silent .ht _ s dev d _ rfl hf hst rfl, exec_focused_silent .lf _ s dev d _ rfl hf hst rfl,
    exec_focused_silent .hom _ s dev d _ rfl hf hst rfl, exec_focused_silent .cr _ s dev d _ rfl hf hst rfl⟩

/-- Settles O33: ESC_INIT is CLR with the magnification reset. -/
theorem clearAndInitialise : Obligations.ClearAndInitialise := fun s dev d hf hst =>
  ⟨exec_focused_silent .clr _ s dev d _ rfl hf hst rfl, exec_focused_silent .escInit _ s dev d _ rfl hf hst rfl⟩

/-- Settles O35: in range the command is silent, out of range it only logs. -/
theorem cursorAndMagnificationSet : Obligations.CursorAndMagnificationSet := by
  intro s dev d hf hst
  refine ⟨?_, fun x y => ⟨fun hin => ?_, fun hout => ?_⟩⟩
  · rintro xL xH yL yH _ _ rfl rfl
    exact ⟨fun hin => exec_focused_silent _ _ s dev d _ rfl hf hst (if_pos hin),
      fun hout => exec_focused_logged _ _ s dev d _ rfl hf hst (if_neg hout)⟩
  · exact exec_focused_silent _ _ s dev d _ rfl hf hst (if_pos hin)
  · exact exec_focused_logged _ _ s dev d _ rfl hf hst (if_neg hout)

/-- The byte of the image that holds a place of its rectangle is one of the `w * h` of the payload (R240). -/
theorem imageByte_lt {w h dx dy : Nat} (hx : dx < w) (hy : dy < 8 * h) : dx * h + dy / 8 < w * h := by
  have hrow : dy / 8 < h := Nat.div_lt_of_lt_mul hy
  calc dx * h + dy / 8 < (dx + 1) * h := by rw [Nat.succ_mul]; omega
    _ ≤ w * h := Nat.mul_le_mul_right h hx

/-- Settles O36: the image is painted at the cursor, and a whole payload has a byte for each place. -/
theorem imageDrawn : Obligations.ImageDrawn := by
  intro s dev d xL xH yL yH g payload w h hf hst hok hwf hw hh
  obtain rfl : w = arg16 xL xH := hw
  obtain rfl : h = arg16 yL yH := hh
  obtain ⟨hscreen, -⟩ := (displayOk_iff _ d).mp hok
  obtain ⟨hlen, hrows⟩ := hscreen.px
  have hpayload : payload.length = arg16 xL xH * arg16 yL yH := beq_iff_eq.mp hwf
  have hsize := paint_size d.px d.cx d.cy (arg16 xL xH) (8 * arg16 yL yH) _ _
    (fun dy dx => (payload.getD (dx * arg16 yL yH + dy / 8)
      (Config.absentPayload (dx * arg16 yL yH + dy / 8))).getLsbD (7 - dy % 8)) hscreen.px
  refine ⟨_, exec_focused_silent _ _ s dev d _ rfl hf hst rfl, hsize.1, hsize.2, fun Y hY X hX => ?_⟩
  have hY' : Y < d.px.length := hlen.symm ▸ hY
  rw [pixelAt_paint d.px _ _ _ _ Y X _ hY' ((hrows _ (List.getElem_mem hY')).symm ▸ hX)]
  split
  · rename_i hin
    have hbyte := imageByte_lt (w := arg16 xL xH) (h := arg16 yL yH) (dx := X - d.cx) (dy := Y - d.cy)
      (by omega) (by omega)
    rw [← hpayload] at hbyte
    rw [List.getD_eq_getElem _ _ hbyte, List.getD_eq_getElem _ _ hbyte]
  · rfl

/-- Settles O37: a stub leaves the display as it was. -/
theorem stubCommandsChangeNothing : Obligations.StubCommandsChangeNothing := by
  intro s dev d hf hst
  have stub (i : Instr) (hi : Instr.onScreen? i = some fun _ d => (d.stub, [])) : exec i s = .next s := by
    rw [exec_focused_silent i _ s dev d d hi hf hst rfl, ← hst, withDevice_same s s.focus dev hf.2]
  exact ⟨fun _ _ _ _ _ => stub _ rfl, fun _ _ _ _ => stub _ rfl, fun _ => stub _ rfl, fun _ _ _ => stub _ rfl⟩

/-! ## The pixels of a display -/

/-- The pixel grid, which only a display has. -/
def DevState.pixels : DevState → Option (List (List Bool))
  | .display d => some d.px
  | .rtc _ | .eeprom _ | .keypad _ | .led _ => none

theorem pixels_eq_none (st : DevState) (h : st.kind ≠ .display) : st.pixels = none := by
  cases st with
  | display => exact absurd rfl h
  | rtc | eeprom | keypad | led => rfl

theorem pixels_of_kind (st st' : DevState) (hkind : st'.kind = st.kind) (hst : st.kind ≠ .display) :
    st'.pixels = st.pixels :=
  (pixels_eq_none st' (hkind ▸ hst)).trans (pixels_eq_none st hst).symm

@[simp] theorem reset_pixels (st : DevState) : st.reset.pixels = st.pixels := by cases st <;> rfl

/-- No device of `t` has another pixel grid than in `s`. -/
def KeepsPixels (s t : State) : Prop :=
  ∀ (k : Nat) (dev dev' : Device), s.devices[k]? = some dev → t.devices[k]? = some dev' → dev'.st.pixels = dev.st.pixels

theorem KeepsPixels.of_devices_eq {s t : State} (h : t.devices = s.devices) : KeepsPixels s t := by
  intro k dev dev' hold hnew
  rw [h, hold] at hnew
  rw [Option.some.inj hnew]

theorem react_keepsPixels (s : State) (k : Nat) (dev : Device) (r : Reaction DevState) (hlive : liveAt s k dev)
    (hr : ∀ st es, r = .done st es → st.pixels = dev.st.pixels) : KeepsPixels s (s.react k dev r) := by
  intro j old new hold hnew
  rcases react_device s k j dev old new r hlive hold hnew with rfl | ⟨-, rfl, st, es, hdone, rfl⟩
  · rfl
  · exact hr st es hdone

/-- A message that carries no data byte to the devices draws nothing (R221). -/
theorem handle_pixels (env : Env) (m : BusMessage) (st st' : DevState) (es : List Effect) (hkind : m.kind ≠ .write)
    (h : st.handle env m = .done st' es) : st'.pixels = st.pixels := by
  cases st with
  | display d =>
    obtain ⟨d', hd, rfl⟩ := (Reaction.map_eq_done _ _ _ _).mp h
    unfold Display.handle at hd
    split at hd
    case h_1 | h_3 => cases hd; rfl
    case h_2 hwrite => exact absurd hwrite hkind
    all_goals cases hd
  | rtc | eeprom | keypad | led => exact pixels_of_kind _ _ (handle_kind env m _ st' es h) (by simp [DevState.kind])

theorem respond_pixels (env : Env) (m : BusMessage) (dev : Device) (st : DevState) (es : List Effect)
    (hkind : m.kind ≠ .write) (h : dev.respond env m = .done st es) : st.pixels = dev.st.pixels := by
  rcases respond_eq_done env m dev st es h with ⟨-, st', hhandle, rfl | rfl⟩ | ⟨-, rfl | rfl⟩
  · exact handle_pixels env m _ _ es hkind hhandle
  · rw [reset_pixels]
    exact handle_pixels env m _ _ es hkind hhandle
  · rfl
  · exact reset_pixels _

theorem deliver_keepsPixels (s : State) (m : BusMessage) (hkind : m.kind ≠ .write) : KeepsPixels s (s.deliver m) := by
  intro k dev new hold hnew
  rcases deliver_device s m k dev new hold hnew with rfl | ⟨-, env, st, es, hr, rfl⟩
  · rfl
  · exact respond_pixels env m dev st es hkind hr

theorem onDisplay_keepsPixels (s : State) (f : Env → Display → Display × List Effect)
    (hf : ∀ env d, (f env d).1.px = d.px) : KeepsPixels s (s.onDisplay f) := by
  rcases onDisplay_cases s f with h | ⟨dev, d, hlive, hst, h⟩ <;> rw [h]
  · exact .of_devices_eq rfl
  · refine react_keepsPixels s _ dev _ hlive ?_
    rintro _ _ ⟨⟩
    rw [hst]
    exact congrArg some (hf s.env d)

/-- A device that is no display has no pixels to change. -/
theorem react_map_keepsPixels {δ : Type} (s : State) (k : Nat) (dev : Device) (f : δ → DevState) (r : Reaction δ)
    (hlive : liveAt s k dev) (hdev : dev.st.pixels = none) (hf : ∀ d, (f d).pixels = none) :
    KeepsPixels s (s.react k dev (r.map f)) := by
  refine react_keepsPixels s k dev _ hlive fun st es hdone => ?_
  obtain ⟨d, -, rfl⟩ := (Reaction.map_eq_done _ _ _ _).mp hdone
  rw [hf d, hdev]

theorem ledSelectByte_keepsPixels (s : State) (b : Byte) : KeepsPixels s (s.ledSelectByte b) := by
  rcases ledSelectByte_cases s b with h | ⟨dev, d, hlive, hst, h⟩ <;> rw [h]
  · exact .of_devices_eq rfl
  · exact react_map_keepsPixels s _ dev .led _ hlive (hst ▸ rfl) fun _ => rfl

theorem eeAddressBytes_keepsPixels (s : State) (hi lo : Byte) : KeepsPixels s (s.eeAddressBytes hi lo) := by
  rcases eeAddressBytes_cases s hi lo with h | ⟨dev, d, hlive, hst, h⟩ <;> rw [h]
  · exact .of_devices_eq rfl
  · exact react_map_keepsPixels s _ dev .eeprom _ hlive (hst ▸ rfl) fun _ => rfl

/-! ### Which instructions draw -/

theorem backspace_px (env : Env) (d : Display) : (d.backspace env).1.px = d.px := by
  unfold Display.backspace
  dsimp only
  (repeat' split) <;> rfl

theorem setCursor_px (cfg : Config) (d : Display) (xL xH yL yH : Byte) (bytes : List Byte) :
    (d.setCursor cfg xL xH yL yH bytes).1.px = d.px := by
  unfold Display.setCursor
  dsimp only
  split <;> rfl

theorem setMag_px (d : Display) (x y : Byte) (bytes : List Byte) : (d.setMag x y bytes).1.px = d.px := by
  unfold Display.setMag
  split <;> rfl

/-- The display's instructions but for PRINT, CLR, ESC_INIT and US_IMAGE draw nothing (R232 to R243). -/
theorem onScreen_px (i : Instr) (f : Env → Display → Display × List Effect) (hscreen : Instr.onScreen? i = some f)
    (hprint : printByte? i = none) (hclr : i ≠ .clr) (hinit : i ≠ .escInit)
    (himage : ∀ xL xH yL yH g p, i ≠ .usImage xL xH yL yH g p) (env : Env) (d : Display) : (f env d).1.px = d.px := by
  cases i with
  | bs => cases hscreen; exact backspace_px env d
  | ht => cases hscreen; exact (congrArg Display.px (advance_eq env.cfg d) :)
  | lf | hom | cr => cases hscreen; rfl
  | clr => exact absurd rfl hclr
  | escInit => exact absurd rfl hinit
  | print20 | print40 | print80 => cases hprint
  | usCursor xL xH yL yH => cases hscreen; exact setCursor_px env.cfg d xL xH yL yH _
  | usMag x y => cases hscreen; exact setMag_px d x y _
  | usImage xL xH yL yH g payload => exact absurd rfl (himage xL xH yL yH g payload)
  | usScroll | usBlink | usWinSelect | usWinDefine => cases hscreen; rfl
  | startW | startR | write | read | stop | ack | ackRead | ledctl | eeaddr => cases hscreen

/-- What runs an unaborted state keeps the pixels if the operation does. -/
theorem keepsPixels_of_next {s t : State} {act : State → State} (h : s.unlessAborted act = .next t)
    (hact : KeepsPixels s (act s)) : KeepsPixels s t := by
  obtain ⟨-, rfl⟩ := (unlessAborted_eq_next s t act).mp h
  exact hact

/-- An instruction that neither draws nor carries a data byte keeps the pixels, whatever device it reaches. -/
theorem exec_keepsPixels (i : Instr) (s t : State) (h : exec i s = .next t) (hprint : printByte? i = none)
    (hclr : i ≠ .clr) (hinit : i ≠ .escInit) (himage : ∀ xL xH yL yH g p, i ≠ .usImage xL xH yL yH g p)
    (hwrite : ∀ v a rnw, i ≠ .write v a rnw) : KeepsPixels s t := by
  cases hscreen : Instr.onScreen? i with
  | some f =>
    rw [exec_onScreen i f s hscreen] at h
    exact keepsPixels_of_next h
      (onDisplay_keepsPixels s f (onScreen_px i f hscreen hprint hclr hinit himage))
  | none =>
    cases i with
    | startW v a =>
      exact keepsPixels_of_next (act := fun s => s.deliver (startMessage v a false)) h (deliver_keepsPixels s _ nofun)
    | startR v a =>
      exact keepsPixels_of_next (act := fun s => s.deliver (startMessage v a true)) h (deliver_keepsPixels s _ nofun)
    | read v a rnw =>
      exact keepsPixels_of_next (act := fun s => s.deliver (readMessage v a rnw)) h (deliver_keepsPixels s _ nofun)
    | stop v a rnw =>
      exact keepsPixels_of_next (act := fun s => s.deliver (stopMessage v a rnw)) h (deliver_keepsPixels s _ nofun)
    | write v a rnw => exact absurd rfl (hwrite v a rnw)
    | ack v a rnw =>
      exact keepsPixels_of_next (act := fun s => s.emitBusIn (ackWord (addressByte a rnw))) h (.of_devices_eq rfl)
    | ackRead v a rnw =>
      exact keepsPixels_of_next (act := fun s => s.emitBusIn (ackReadWord v (addressByte a rnw))) h (.of_devices_eq rfl)
    | ledctl ai reg =>
      exact keepsPixels_of_next (act := fun s => s.ledSelectByte (ledctlByte ai reg)) h (ledSelectByte_keepsPixels s _)
    | eeaddr hi lo =>
      exact keepsPixels_of_next (act := fun s => s.eeAddressBytes hi lo) h (eeAddressBytes_keepsPixels s hi lo)
    | bs | ht | lf | hom | clr | cr | print20 | print40 | print80 | escInit | usCursor | usMag | usImage | usScroll
    | usBlink | usWinSelect | usWinDefine => cases hscreen

/-- Settles O42: a case for each way an instruction can reach a display. -/
theorem pixelsChangeOnlyByDrawing : Obligations.PixelsChangeOnlyByDrawing := by
  intro i s t k dev dev' d d' hexec hprint hclr hinit himage hwrite hold hst hnew hst'
  have hpixels := exec_keepsPixels i s t hexec hprint hclr hinit himage hwrite k dev dev' hold hnew
  rw [hst, hst'] at hpixels
  exact Option.some.inj hpixels

end Sys2Proof.Machine
end

section
/-! PROOFS. A stream byte at the display: parsed, the busy pulse, the acknowledgement (R221 to R227, R244, R245). -/

namespace Sys2Proof.Machine

/-! ## A WRITE whose device does more than acknowledge -/

/-- The effects that raise a word on BUS_IN. -/
def Effect.isReply : Effect → Bool
  | .reply _ => true
  | .pin _ _ | .log _ | .cancel _ | .schedule _ _ | .drew _ => false

/-- Effects without a reply neither read nor write what the listener and the address byte hold. -/
theorem foldl_perform_heard (k : Nat) (es : List Effect) (hes : ∀ e ∈ es, e.isReply = false) (s : State) (ab : Byte)
    (o : Option Transaction) :
    es.foldl (State.perform k) { s with ab := ab, openTx := o } =
      { es.foldl (State.perform k) s with ab := ab, openTx := o } := by
  induction es generalizing s with
  | nil => rfl
  | cons e es ih =>
    obtain ⟨he, hes'⟩ := List.forall_mem_cons.mp hes
    have hstep : State.perform k { s with ab := ab, openTx := o } e =
        { State.perform k s e with ab := ab, openTx := o } := by
      cases e with
      | reply w => cases he
      | pin | log | cancel | schedule | drew => rfl
    rw [List.foldl_cons, List.foldl_cons, hstep, ih hes']

/-- The state after a WRITE of `v` that device `k` takes into state `st` with effects `es` before its ACK. -/
def State.tookByte (s : State) (k : Nat) (dev : Device) (st : DevState) (es : List Effect) (v ab : Byte) : State :=
  { es.foldl (State.perform k) (s.withDevice k dev st) with
    ab := ab
    trace := (es.foldl (State.perform k) (s.withDevice k dev st)).trace ++ [ackEvent ab]
    openTx := heardByte s.openTx v }

@[simp] theorem tookByte_aborted (s : State) (k : Nat) (dev : Device) (st : DevState) (es : List Effect) (v ab : Byte) :
    (s.tookByte k dev st es v ab).aborted = s.aborted := by
  simp only [State.tookByte, performAll_aborted, withDevice_aborted]

@[simp] theorem tookByte_devices (s : State) (k : Nat) (dev : Device) (st : DevState) (es : List Effect) (v ab : Byte) :
    (s.tookByte k dev st es v ab).devices = s.devices.set k { dev with st := st } := by
  simp only [State.tookByte, performAll_devices, withDevice_devices]

/-- A WRITE the addressed device takes with effects before its ACK, whatever the order of the subscribers. -/
theorem deliver_write_effects (s : State) (k : Nat) (dev : Device) (v : Byte) (a : BusAddress) (rnw : Bool)
    (st : DevState) (es : List Effect) (h : addressed s k dev a) (hes : ∀ e ∈ es, e.isReply = false)
    (hr : dev.respond s.env (writeMessage v a rnw) = .done st (es ++ [ackOnly (addressByte a rnw)])) :
    s.deliver (writeMessage v a rnw) = s.tookByte k dev st es v (addressByte a rnw) := by
  obtain ⟨hab, hlive, -, hother⟩ := id h
  have hlt : k < s.devices.length := (List.getElem?_eq_some_iff.mp (addressed_device h).1).1
  have hadapter (o : Option Transaction) :
      ({ s with ab := addressByte a rnw, openTx := o } : State).adapter (writeMessage v a rnw) k =
        { s.tookByte k dev st es v (addressByte a rnw) with openTx := o } := by
    refine (adapter_react { s with ab := addressByte a rnw, openTx := o } k dev _ hlive).trans ?_
    rw [show ({ s with ab := addressByte a rnw, openTx := o } : State).env = s.env from rfl, hr, react_done,
      List.foldl_append]
    refine (congrArg (fun t => [ackOnly (addressByte a rnw)].foldl (State.perform k) t)
      (foldl_perform_heard k es hes (s.withDevice k dev st) (addressByte a rnw) o)).trans ?_
    exact emitBusIn_ackWord _ _
  rcases deliver_single s (writeMessage v a rnw) k hlt hab rfl hother with hfirst | hlast
  · rw [hfirst]
    refine (congrArg (State.subscriber _ · _) (hadapter s.openTx)).trans ?_
    have hlen : s.devices.length = (s.tookByte k dev st es v (addressByte a rnw)).devices.length := by
      rw [tookByte_devices, List.length_set]
    rw [hlen]
    exact subscriber_listener { s.tookByte k dev st es v (addressByte a rnw) with openTx := s.openTx }
      (writeMessage v a rnw) ((tookByte_aborted s k dev st es v (addressByte a rnw)).trans hab)
  · rw [hlast]
    exact hadapter (txWrite s.openTx v)

theorem exec_write_effects (s : State) (k : Nat) (dev : Device) (v : Byte) (a : BusAddress) (rnw : Bool)
    (st : DevState) (es : List Effect) (h : addressed s k dev a) (hes : ∀ e ∈ es, e.isReply = false)
    (hr : dev.respond s.env (writeMessage v a rnw) = .done st (es ++ [ackOnly (addressByte a rnw)])) :
    exec (.write v a rnw) s = .next (s.tookByte k dev st es v (addressByte a rnw)) := by
  obtain ⟨hab, -⟩ := id h
  rw [exec_write_running s v a rnw hab, deliver_write_effects s k dev v a rnw st es h hes hr]

/-! ## What the parser leaves to the bus -/

/-- The effects of an operation on the screen: a record of the log, or free values drawn. -/
def Effect.isRecord : Effect → Bool
  | .log _ | .drew _ => true
  | .reply _ | .pin _ _ | .cancel _ | .schedule _ _ => false

theorem isReply_of_isRecord (e : Effect) (h : e.isRecord = true) : e.isReply = false := by
  cases e with
  | reply => cases h
  | pin | log | cancel | schedule | drew => rfl

/-- What the display shows to the bus and to its pin (R221, R244). -/
def Display.busSide (d : Display) : DispPhase × Bool × Option Nat := (d.phase, d.busy, d.busyTimer)

/-- An answer that leaves the bus phase and the busy line as they were and only records. -/
structure OffBus (d : Display) (r : Display × List Effect) : Prop where
  busSide : r.1.busSide = d.busSide
  records : ∀ e ∈ r.2, e.isRecord = true

theorem OffBus.silent {d d' : Display} (h : d'.busSide = d.busSide) : OffBus d (d', []) := ⟨h, List.forall_mem_nil _⟩

theorem OffBus.logged {d d' : Display} (h : d'.busSide = d.busSide) (bytes : List Byte) :
    OffBus d (d', [.log bytes]) := ⟨h, List.forall_mem_singleton.mpr rfl⟩

/-- The bus side may be read off another display that agrees on it. -/
theorem OffBus.of_same {d d' : Display} {r : Display × List Effect} (h : OffBus d' r)
    (hsame : d'.busSide = d.busSide := by rfl) : OffBus d r := ⟨h.busSide.trans hsame, h.records⟩

theorem advance_busSide (cfg : Config) (d : Display) : (d.advance cfg).busSide = d.busSide := by
  rw [advance_eq]
  rfl

theorem textPut_busSide (cfg : Config) (d : Display) (c : Byte) : (d.textPut cfg c).busSide = d.busSide := by
  unfold Display.textPut
  dsimp only
  split <;> rfl

theorem print_busSide (cfg : Config) (d : Display) (c : Byte) : (d.print cfg c).busSide = d.busSide :=
  (advance_busSide cfg _).trans (textPut_busSide cfg _ c)

theorem backspace_offBus (env : Env) (d : Display) : OffBus d (d.backspace env) := by
  unfold Display.backspace
  dsimp only
  split
  · exact .silent rfl
  · split
    · split
      · exact .silent rfl
      · exact ⟨rfl, List.forall_mem_singleton.mpr rfl⟩
    · exact .silent rfl

theorem setCursor_offBus (cfg : Config) (d : Display) (xL xH yL yH : Byte) (bytes : List Byte) :
    OffBus d (d.setCursor cfg xL xH yL yH bytes) := by
  unfold Display.setCursor
  dsimp only
  split
  · exact .silent rfl
  · exact .logged rfl bytes

theorem setMag_offBus (d : Display) (x y : Byte) (bytes : List Byte) : OffBus d (d.setMag x y bytes) := by
  unfold Display.setMag
  split
  · exact .silent rfl
  · exact .logged rfl bytes

theorem command_offBus (cfg : Config) (c : DisplayCommand) (key fixed varArgs : List Byte) (d : Display) :
    OffBus d (d.command cfg c key fixed varArgs) := by
  cases c with
  | escInit | usImage | usScroll | usBlink | usWinSelect | usWinDefine => exact .silent rfl
  | usCursor => exact setCursor_offBus cfg d _ _ _ _ _
  | usMag => exact setMag_offBus d _ _ _

/-- The display's instructions (R228 to R243). -/
theorem onScreen_offBus (i : Instr) (f : Env → Display → Display × List Effect) (h : Instr.onScreen? i = some f)
    (env : Env) (d : Display) : OffBus d (f env d) := by
  cases i with
  | bs => cases h; exact backspace_offBus env d
  | ht => cases h; exact .silent (advance_busSide env.cfg d)
  | print20 | print40 | print80 => cases h; exact .silent (print_busSide env.cfg d _)
  | usCursor => cases h; exact setCursor_offBus env.cfg d _ _ _ _ _
  | usMag => cases h; exact setMag_offBus d _ _ _
  | lf | hom | clr | cr | escInit | usImage | usScroll | usBlink | usWinSelect | usWinDefine =>
    cases h; exact .silent rfl
  | startW | startR | write | read | stop | ack | ackRead | ledctl | eeaddr => cases h

theorem execute_offBus (cfg : Config) (d : Display) : OffBus d (d.execute cfg) := by
  unfold Display.execute
  split
  · rename_i row _
    obtain ⟨hbus, hrecords⟩ := command_offBus cfg row.command d.pfx d.fixed d.varArgs d
    exact ⟨hbus, hrecords⟩
  · exact .silent rfl

theorem afterFixed_offBus (cfg : Config) (d : Display) : OffBus d (d.afterFixed cfg) := by
  unfold Display.afterFixed
  dsimp only
  split
  all_goals
    split
    · exact .silent rfl
    · exact (execute_offBus cfg _).of_same

theorem enterArgs_offBus (cfg : Config) (d : Display) (row : CommandRow) : OffBus d (d.enterArgs cfg row) := by
  unfold Display.enterArgs
  dsimp only
  split
  · exact .silent rfl
  · exact (afterFixed_offBus cfg _).of_same

theorem parseIdle_offBus (env : Env) (d : Display) (b : Byte) : OffBus d (d.parseIdle env b) := by
  unfold Display.parseIdle
  split
  · rename_i r hr
    obtain ⟨i, f, hi, rfl⟩ := control_eq_onScreen env d b r hr
    exact onScreen_offBus i f hi env d
  · split
    · exact .silent (print_busSide env.cfg d b)
    · split
      · dsimp only
        split
        · exact (enterArgs_offBus env.cfg _ _).of_same
        · exact .silent rfl
      · exact .logged rfl [b]

theorem parsePrefix_offBus (cfg : Config) (d : Display) (b : Byte) : OffBus d (d.parsePrefix cfg b) := by
  unfold Display.parsePrefix
  dsimp only
  split
  · exact (enterArgs_offBus cfg _ _).of_same
  · split
    · exact .silent rfl
    · exact ⟨rfl, List.forall_mem_singleton.mpr rfl⟩

/-- The parser writes neither the bus phase nor the busy line, and only records (R222 to R227). -/
theorem parseByte_offBus (env : Env) (d : Display) (b : Byte) : OffBus d (d.parseByte env b) := by
  unfold Display.parseByte
  split
  · exact parseIdle_offBus env d b
  · exact parsePrefix_offBus env.cfg d b
  · unfold Display.parseFixed
    dsimp only
    split
    · exact (afterFixed_offBus env.cfg _).of_same
    · exact .silent rfl
  · unfold Display.parseVar
    dsimp only
    split
    · exact (execute_offBus env.cfg _).of_same
    · exact .silent rfl

/-! ## The busy pulse (R244) -/

theorem busyPulse_none (env : Env) (d : Display) (h : env.cfg.dispBusyUs = none) : d.busyPulse env = (d, []) := by
  simp only [Display.busyPulse, h]

theorem busyPulse_some (env : Env) (d : Display) (us : Nat) (h : env.cfg.dispBusyUs = some us) :
    d.busyPulse env = ({ d with busy := true, busyTimer := some env.id },
      d.busyTimer.toList.map Effect.cancel ++ (if d.busy then [] else [.pin .busy true]) ++
        [.schedule us .busyEnd]) := by
  simp only [Display.busyPulse, h]
  cases d.busyTimer <;> rfl

theorem busyPulse_noReply (env : Env) (d : Display) : ∀ e ∈ (d.busyPulse env).2, e.isReply = false := by
  cases h : env.cfg.dispBusyUs with
  | none =>
    rw [busyPulse_none env d h]
    exact List.forall_mem_nil _
  | some us =>
    rw [busyPulse_some env d us h]
    cases d.busyTimer <;> cases d.busy <;> simp [Effect.isReply]

/-- The pulse writes the busy line and its timer only. -/
theorem busyPulse_display (env : Env) (d : Display) :
    (d.busyPulse env).1 = { d with busy := (d.busyPulse env).1.busy, busyTimer := (d.busyPulse env).1.busyTimer } := by
  unfold Display.busyPulse
  split <;> rfl

theorem foldl_perform_cancel (s : State) (k : Nat) (old : Option Nat) :
    (old.toList.map Effect.cancel).foldl (State.perform k) s =
      { s with pending := s.pending.filter (fun x => decide (old ≠ some x.id)) } := by
  cases old with
  | none => simp
  | some id => simp [State.perform, State.cancel, bne, Bool.beq_eq_decide_eq, eq_comm]

/-- The old end cancelled, the pin raised if it was low, the new end scheduled. -/
theorem foldl_perform_busyPulse (s : State) (k : Nat) (env : Env) (d : Display) (us : Nat)
    (h : env.cfg.dispBusyUs = some us) :
    (d.busyPulse env).2.foldl (State.perform k) s = { s with
      pending := s.pending.filter (fun x => decide (d.busyTimer ≠ some x.id)) ++
        [{ id := s.nextId, owner := k, fireAt := s.now + us * s.cfg.cyclesPerUs, payload := .busyEnd, periodic := none }]
      nextId := s.nextId + 1
      trace := s.trace ++ if d.busy then [] else [.pin k .busy true] } := by
  rw [busyPulse_some env d us h, List.foldl_append, List.foldl_append, foldl_perform_cancel]
  cases d.busy with
  | true => simp only [if_true, List.append_nil]; rfl
  | false => rfl

theorem foldl_perform_busyPulse_dbglog (s : State) (k : Nat) (env : Env) (d : Display) :
    ((d.busyPulse env).2.foldl (State.perform k) s).dbglog = s.dbglog := by
  cases h : env.cfg.dispBusyUs with
  | none => rw [busyPulse_none env d h, List.foldl_nil]
  | some us => rw [foldl_perform_busyPulse s k env d us h]

/-! ## WRITE at a display that is Receiving (R221) -/

section
variable (s : State) (k : Nat) (dev : Device) (d : Display) (b : Byte) (a : BusAddress) (rnw : Bool)

theorem respond_display_write (env : Env) (hacc : dev.accepts a = true) (hst : dev.st = .display d)
    (hphase : d.phase = .receiving) :
    dev.respond env (writeMessage b a rnw) = .done (.display ((d.parseByte env b).1.busyPulse env).1)
      ((d.parseByte env b).2 ++ ((d.parseByte env b).1.busyPulse env).2 ++ [ackOnly (addressByte a rnw)]) := by
  have hhandle : d.handle env (writeMessage b a rnw) = d.streamByte env (addressByte a rnw) b := by
    have hkind : (writeMessage b a rnw).kind = .write := rfl
    simp only [Display.handle, hkind, hphase]
    rfl
  rw [respond_write env dev b a rnw hacc, hst]
  exact congrArg (Reaction.map DevState.display) hhandle

theorem exec_write_display (h : addressed s k dev a) (hst : dev.st = .display d) (hphase : d.phase = .receiving) :
    exec (.write b a rnw) s = .next (s.tookByte k dev (.display ((d.parseByte s.env b).1.busyPulse s.env).1)
      ((d.parseByte s.env b).2 ++ ((d.parseByte s.env b).1.busyPulse s.env).2) b (addressByte a rnw)) := by
  obtain ⟨-, -, hacc, -⟩ := id h
  refine exec_write_effects s k dev b a rnw _ _ h (fun e he => ?_)
    (respond_display_write dev d b a rnw s.env hacc hst hphase)
  rcases List.mem_append.mp he with he | he
  · exact isReply_of_isRecord e ((parseByte_offBus s.env d b).records e he)
  · exact busyPulse_noReply s.env _ e he

/-- A byte the parser only logs. -/
theorem exec_write_logged (d1 : Display) (bytes : List Byte) (h : addressed s k dev a) (hst : dev.st = .display d)
    (hphase : d.phase = .receiving) (hparse : d.parseByte s.env b = (d1, [.log bytes])) :
    ∃ t d', exec (.write b a rnw) s = .next t ∧ t.aborted = none ∧
      t.dbglog = s.dbglog ++ [{ device := k, bytes := bytes }] ∧
      t.devices = s.devices.set k { dev with st := .display d' } ∧
      d' = { d1 with busy := d'.busy, busyTimer := d'.busyTimer } := by
  obtain ⟨hab, -⟩ := id h
  have hexec := exec_write_display s k dev d b a rnw h hst hphase
  rw [hparse] at hexec
  refine ⟨_, _, hexec, (tookByte_aborted s k dev _ _ _ _).trans hab, ?_, tookByte_devices s k dev _ _ _ _,
    busyPulse_display s.env d1⟩
  simp only [State.tookByte, List.foldl_append, foldl_perform_busyPulse_dbglog]
  rfl

end

/-! ## Bytes that begin nothing (R223, R224) -/

/-- The parser executes a control byte as the instruction it stands for (R73, R223). -/
theorem control?_eq (env : Env) (d : Display) (b : Byte) :
    d.control? env b = (controlInstr b).bind fun i => (Instr.onScreen? i).map fun f => f env d := by
  unfold Display.control? controlInstr
  (repeat' split) <;> rfl

theorem controlInstr_eq_none (b : Byte) (h : b ∉ [0x08, 0x09, 0x0A, 0x0B, 0x0C, 0x0D]) : controlInstr b = none := by
  simp only [List.mem_cons, List.not_mem_nil, or_false, not_or] at h
  obtain ⟨h08, h09, h0A, h0B, h0C, h0D⟩ := h
  simp only [controlInstr, if_neg h08, if_neg h09, if_neg h0A, if_neg h0B, if_neg h0C, if_neg h0D]

theorem tableBegins_eq_false (table : List CommandRow) (bytes : List Byte) :
    tableBegins table bytes = false ↔ ∀ r ∈ table, ¬ bytes <+: r.key := by
  simp [tableBegins]

/-- The row of some bytes is a row whose key they begin. -/
theorem tableRow?_eq_none (table : List CommandRow) (bytes : List Byte) (h : tableBegins table bytes = false) :
    tableRow? table bytes = none := by
  refine List.find?_eq_none.mpr fun r hr hkey => ?_
  obtain rfl : r.key = bytes := beq_iff_eq.mp hkey
  exact (tableBegins_eq_false table _).mp h r hr (List.prefix_refl _)

/-- Settles O40: either branch of the parser logs, and answers an idle parser. -/
theorem unrecognisedBytesAreLoggedAndDropped : Obligations.UnrecognisedBytesAreLoggedAndDropped := by
  intro s k dev d b a rnw haddr hst hphase
  refine ⟨fun hidle hlow hcontrol hkeys => ?_, fun hprefix hkeys => ?_⟩
  · have hbegins : tableBegins s.cfg.cmdTable [b] = false :=
      (tableBegins_eq_false _ _).mpr fun r hr => by
        rintro ⟨rest, hkey⟩
        exact hkeys r hr (by rw [← hkey]; rfl)
    refine exec_write_logged s k dev d b a rnw d [b] haddr hst hphase ?_
    simp only [Display.parseByte, hidle, Display.parseIdle,
      control?_eq, controlInstr_eq_none b hcontrol, Option.bind_none, if_neg hlow.not_ge, env_cfg, hbegins,
      Bool.false_eq_true, if_false]
  · have hbegins : tableBegins s.cfg.cmdTable (d.pfx ++ [b]) = false := (tableBegins_eq_false _ _).mpr hkeys
    refine exec_write_logged s k dev d b a rnw { d with pstate := .idle, pfx := [] } _ haddr hst hphase ?_
    simp only [Display.parseByte, hprefix, Display.parsePrefix, env_cfg, hbegins, tableRow?_eq_none _ _ hbegins,
      Bool.false_eq_true, if_false]

/-! ## The busy line (R244, R245) -/

/-- The record an effect of device `k` appends to the log. -/
def Effect.record? (k : Nat) : Effect → Option LogRecord
  | .log bytes => some { device := k, bytes := bytes }
  | .reply _ | .pin _ _ | .cancel _ | .schedule _ _ | .drew _ => none

/-- How many free values an effect draws. -/
def Effect.drawn : Effect → Nat
  | .drew n => n
  | .reply _ | .pin _ _ | .log _ | .cancel _ | .schedule _ _ => 0

/-- Records are written to the log and to the counter of the free values, and nowhere else. -/
theorem foldl_perform_records (k : Nat) (es : List Effect) (hes : ∀ e ∈ es, e.isRecord = true) (s : State) :
    es.foldl (State.perform k) s = { s with
      dbglog := s.dbglog ++ es.filterMap (Effect.record? k)
      draws := s.draws + (es.map Effect.drawn).sum } := by
  induction es generalizing s with
  | nil => simp
  | cons e es ih =>
    obtain ⟨he, hes'⟩ := List.forall_mem_cons.mp hes
    rw [List.foldl_cons, ih hes']
    cases e with
    | log bytes => simp [State.perform, Effect.record?, Effect.drawn]
    | drew n => simp [State.perform, List.filterMap_cons, Effect.record?, Effect.drawn, Nat.add_assoc]
    | reply | pin | cancel | schedule => cases he

theorem callback_busyEnd (s : State) (act : PendingAction) (dev : Device) (d : Display)
    (hpayload : act.payload = .busyEnd) (hlive : liveAt s act.owner dev) (hst : dev.st = .display d) :
    s.callback act = { s.withDevice act.owner dev (.display { d with busy := false, busyTimer := none }) with
      trace := s.trace ++ [.pin act.owner .busy false] } := by
  simp only [State.callback, show s.liveDevice? act.owner = some dev from hlive, hpayload, hst]
  rfl

/-- Settles O41: the pulse follows the parsed byte, which leaves line and timer as they were; the due end is the
callback of its action. -/
theorem busyPulsePerStreamByte : Obligations.BusyPulsePerStreamByte := by
  constructor
  · intro s k dev d b a rnw us haddr hst hphase hus
    obtain ⟨hab, -⟩ := id haddr
    obtain ⟨hbus, hrecords⟩ := parseByte_offBus s.env d b
    have hexec := exec_write_display s k dev d b a rnw haddr hst hphase
    generalize d.parseByte s.env b = parsed at hexec hbus hrecords ⊢
    obtain ⟨d1, es⟩ := parsed
    obtain ⟨-, hbusy, htimer⟩ : d1.phase = d.phase ∧ d1.busy = d.busy ∧ d1.busyTimer = d.busyTimer := by
      simpa [Display.busSide] using hbus
    have hpulse : (d1.busyPulse s.env).1 = { d1 with busy := true, busyTimer := some s.nextId } := by
      simp only [Display.busyPulse, env_cfg, hus]
      rfl
    rw [hpulse, State.tookByte, List.foldl_append, foldl_perform_busyPulse _ k s.env d1 us hus,
      foldl_perform_records k es hrecords, hbusy, htimer] at hexec
    exact ⟨_, hexec, hab, rfl, rfl, rfl, rfl⟩
  · intro s dev d act rest hab hin hfind hdue hfirst hpayload honce hlive hst
    have htaken : ({ s with inbox := rest } : State).takeAction act =
        { s with inbox := rest, pending := s.pending.filter (fun x => x.id != act.id) } := by
      simp only [State.takeAction, afterFiring, honce]
    rw [step_fire_due s act rest hab hin hfind hdue hfirst, htaken]
    exact congrArg Host.Outcome.next (callback_busyEnd _ act dev d hpayload hlive hst)

end Sys2Proof.Machine
end

section
/-! PROOFS. The bytes of a display command, sent one by one over the bus, do what the decoded instruction does (R72,
R73, R221 to R227, R231). -/

namespace Sys2Proof.Machine

/-! ## The parser over a list of bytes -/

/-- Parsing bytes one after the other, from an answer of the parser to its last one: no byte but the last has an
effect. -/
inductive ParsesOn (env : Env) : Display × List Effect → List Byte → Display × List Effect → Prop
  | done (r : Display × List Effect) : ParsesOn env r [] r
  | byte (d : Display) (b : Byte) (bs : List Byte) (r : Display × List Effect)
      (h : ParsesOn env (d.parseByte env b) bs r) : ParsesOn env (d, []) (b :: bs) r

/-- One byte that answers `r`. -/
theorem ParsesOn.single {env : Env} {d : Display} {b : Byte} {r : Display × List Effect}
    (h : d.parseByte env b = r) : ParsesOn env (d, []) [b] r := by
  subst h
  exact .byte d b [] _ (.done _)

/-- One byte that only changes the parser, and those that follow. -/
theorem ParsesOn.cons {env : Env} {d d' : Display} {b : Byte} {bs : List Byte} {r : Display × List Effect}
    (h : d.parseByte env b = (d', [])) (hrest : ParsesOn env (d', []) bs r) : ParsesOn env (d, []) (b :: bs) r :=
  .byte d b bs r (by rwa [h])

/-! ### Execution (R227) -/

/-- A command reads nothing of the parser but the bytes it is given, and does not write it. -/
theorem command_clearParser (cfg : Config) (c : DisplayCommand) (key fixed varArgs : List Byte) (d : Display) :
    ((d.command cfg c key fixed varArgs).1.clearParser, (d.command cfg c key fixed varArgs).2) =
      d.clearParser.command cfg c key fixed varArgs := by
  cases c with
  | escInit | usImage | usScroll | usBlink | usWinSelect | usWinDefine => rfl
  | usCursor =>
    simp only [Display.command, Display.setCursor]
    split <;> rfl
  | usMag =>
    simp only [Display.command, Display.setMag]
    split <;> rfl

theorem execute_eq (cfg : Config) (d : Display) (row : CommandRow) (h : d.entry = some row) :
    d.execute cfg = d.clearParser.command cfg row.command d.pfx d.fixed d.varArgs := by
  rw [← command_clearParser]
  simp only [Display.execute, h]

theorem clearParser_of_empty (d : Display) (hidle : d.pstate = .idle) (hempty : parserEmpty d) : d.clearParser = d := by
  obtain ⟨hpfx, hfixed, hvar, hneedFixed, hneedVar, hentry⟩ := hempty
  cases d
  simp_all [Display.clearParser]

/-! ### Collecting a command (R224 to R226) -/

section
variable (env : Env) (d : Display) (row : CommandRow)

/-- The variable bytes to the last one, which executes the command (R226). -/
theorem parseVar_parsesOn (vs all : List Byte) (hstate : d.pstate = .collectingVariableArgs)
    (hentry : d.entry = some row) (hall : d.varArgs ++ vs = all) (hlen : all.length = d.needVar) (hvs : vs ≠ []) :
    ParsesOn env (d, []) vs (d.clearParser.command env.cfg row.command d.pfx d.fixed all) := by
  induction vs generalizing d with
  | nil => exact absurd rfl hvs
  | cons v vs ih =>
    have hbyte : d.parseByte env v = d.parseVar env.cfg v := by simp only [Display.parseByte, hstate]
    cases vs with
    | nil =>
      subst hall
      exact .single (hbyte.trans ((if_pos hlen).trans (execute_eq env.cfg _ row hentry)))
    | cons w vs =>
      have hmore : (d.varArgs ++ [v]).length ≠ d.needVar := by
        rw [← hlen, ← hall]
        simp
      exact .cons (hbyte.trans (if_neg hmore))
        (ih { d with varArgs := d.varArgs ++ [v] } hstate hentry (by simpa using hall) hlen nofun)

/-- The fixed arguments are complete: the command is executed, now or after its variable bytes (R225). -/
theorem afterFixed_parsesOn (vs : List Byte) (hentry : d.entry = some row) (hvar : d.varArgs = [])
    (hlen : vs.length = dynLength row.dynLen d.fixed) :
    ParsesOn env (d.afterFixed env.cfg) vs (d.clearParser.command env.cfg row.command d.pfx d.fixed vs) := by
  have hafter : d.afterFixed env.cfg =
      if 0 < vs.length then ({ d with needVar := vs.length, pstate := .collectingVariableArgs }, [])
      else Display.execute env.cfg { d with needVar := vs.length } := by
    simp only [Display.afterFixed, hentry, hlen]
  rw [hafter]
  cases vs with
  | nil =>
    rw [if_neg (by simp), execute_eq env.cfg { d with needVar := ([] : List Byte).length } row hentry, hvar]
    exact .done _
  | cons v vs =>
    rw [if_pos (by simp)]
    exact parseVar_parsesOn env { d with needVar := (v :: vs).length, pstate := .collectingVariableArgs } row
      (v :: vs) (v :: vs) rfl hentry (by simp [hvar]) rfl nofun

/-- The fixed arguments to the last one, and the variable bytes after them (R225). -/
theorem parseFixed_parsesOn (fs all vs : List Byte) (hstate : d.pstate = .collectingFixedArgs)
    (hentry : d.entry = some row) (hvar : d.varArgs = []) (hall : d.fixed ++ fs = all) (hlen : all.length = d.needFixed)
    (hfs : fs ≠ []) (hvs : vs.length = dynLength row.dynLen all) :
    ParsesOn env (d, []) (fs ++ vs) (d.clearParser.command env.cfg row.command d.pfx all vs) := by
  induction fs generalizing d with
  | nil => exact absurd rfl hfs
  | cons f fs ih =>
    have hbyte : d.parseByte env f = d.parseFixed env.cfg f := by simp only [Display.parseByte, hstate]
    cases fs with
    | nil =>
      subst hall
      refine .byte d f vs _ ?_
      rw [hbyte, Display.parseFixed, if_pos hlen]
      exact afterFixed_parsesOn env { d with fixed := d.fixed ++ [f] } row vs hentry hvar hvs
    | cons g fs =>
      have hmore : (d.fixed ++ [f]).length ≠ d.needFixed := by
        rw [← hlen, ← hall]
        simp
      exact .cons (hbyte.trans (if_neg hmore))
        (ih { d with fixed := d.fixed ++ [f] } hstate hentry hvar (by simpa using hall) hlen nofun)

/-- The key is complete: its arguments follow (R224). -/
theorem enterArgs_parsesOn (fs vs : List Byte) (hfs : fs.length = row.fixedLen)
    (hvs : vs.length = dynLength row.dynLen fs) :
    ParsesOn env (d.enterArgs env.cfg row) (fs ++ vs) (d.clearParser.command env.cfg row.command d.pfx fs vs) := by
  unfold Display.enterArgs
  dsimp only
  cases fs with
  | nil =>
    rw [if_neg (by simp [← hfs])]
    exact afterFixed_parsesOn env
      { d with entry := some row, fixed := [], varArgs := [], needFixed := row.fixedLen } row vs rfl rfl hvs
  | cons f fs =>
    rw [if_pos (by simp [← hfs])]
    exact parseFixed_parsesOn env
      { d with entry := some row, fixed := [], varArgs := [], needFixed := row.fixedLen, pstate := .collectingFixedArgs }
      row (f :: fs) (f :: fs) vs rfl rfl rfl rfl hfs nofun hvs

end

/-! ### The default table (R231) -/

theorem defaultTable_row : ∀ row ∈ defaultCommandTable, tableRow? defaultCommandTable row.key = some row := by decide

/-- What begins a key and is not all of it is no key. -/
theorem defaultTable_within : ∀ row ∈ defaultCommandTable, ∀ p ∈ row.key.inits, p ≠ [] → p ≠ row.key →
    tableRow? defaultCommandTable p = none ∧ tableBegins defaultCommandTable p = true := by decide

/-- A key has two bytes at least, and its first is neither printable nor a control byte. -/
theorem defaultTable_first : ∀ row ∈ defaultCommandTable, ∃ b q, row.key = b :: q ∧ q ≠ [] ∧ b.toNat < 0x20 ∧
    controlInstr b = none := by
  intro row hrow
  fin_cases hrow <;> exact ⟨_, _, rfl, nofun, by decide, rfl⟩

section
variable {env : Env} {row : CommandRow}

/-- The bytes of a key after the first ones, to the last (R224). -/
theorem parsePrefix_parsesOn (htable : env.cfg.cmdTable = defaultCommandTable) (hrow : row ∈ defaultCommandTable)
    (d : Display) (q bs : List Byte) (r : Display × List Effect) (hstate : d.pstate = .collectingCommandPrefix)
    (hkey : d.pfx ++ q = row.key) (hq : q ≠ [])
    (hr : ParsesOn env (Display.enterArgs env.cfg { d with pfx := row.key } row) bs r) :
    ParsesOn env (d, []) (q ++ bs) r := by
  induction q generalizing d with
  | nil => exact absurd rfl hq
  | cons b q ih =>
    have hbyte : d.parseByte env b = d.parsePrefix env.cfg b := by simp only [Display.parseByte, hstate]
    cases q with
    | nil =>
      refine .byte d b bs r ?_
      simpa only [hbyte, Display.parsePrefix, htable, hkey, defaultTable_row row hrow] using hr
    | cons c q =>
      have hmore : d.pfx ++ [b] ++ c :: q = row.key := by simpa using hkey
      have hne : d.pfx ++ [b] ≠ row.key := by simp [← hmore]
      obtain ⟨hnone, hbegins⟩ := defaultTable_within row hrow (d.pfx ++ [b])
        ((List.mem_inits _ _).mpr ⟨_, hmore⟩) (by simp) hne
      refine .cons (d' := { d with pfx := d.pfx ++ [b] }) ?_ (ih { d with pfx := d.pfx ++ [b] } hstate hmore nofun hr)
      simp only [hbyte, Display.parsePrefix, htable, hnone, hbegins, if_true]

/-- A whole command, from an idle parser: executed with its key and its arguments, the parser idle again. -/
theorem command_parsesOn (htable : env.cfg.cmdTable = defaultCommandTable) (hrow : row ∈ defaultCommandTable)
    (d : Display) (fs vs : List Byte) (hidle : d.pstate = .idle) (hempty : parserEmpty d)
    (hfs : fs.length = row.fixedLen) (hvs : vs.length = dynLength row.dynLen fs) :
    ParsesOn env (d, []) (row.key ++ (fs ++ vs)) (d.command env.cfg row.command row.key fs vs) := by
  obtain ⟨b, q, hkey, hq, hlow, hcontrol⟩ := defaultTable_first row hrow
  obtain ⟨hnone, hbegins⟩ := defaultTable_within row hrow [b]
    ((List.mem_inits _ _).mpr (by simp [hkey])) (by simp) (by simpa [hkey, eq_comm] using hq)
  have hfirst : d.parseByte env b = ({ d with pfx := [b], pstate := .collectingCommandPrefix }, []) := by
    simp only [Display.parseByte, hidle, Display.parseIdle, control?_eq, hcontrol, Option.bind_none, if_neg hlow.not_ge,
      htable, hbegins, hnone, if_true]
  have hargs := enterArgs_parsesOn env { d with pfx := row.key, pstate := .collectingCommandPrefix } row fs vs hfs hvs
  have hrest := parsePrefix_parsesOn htable hrow { d with pfx := [b], pstate := .collectingCommandPrefix } q (fs ++ vs) _
    rfl hkey.symm hq hargs
  have hparse := ParsesOn.cons hfirst hrest
  rw [← List.cons_append, ← hkey] at hparse
  have hcommand : d.clearParser.command env.cfg row.command row.key fs vs =
      d.command env.cfg row.command row.key fs vs := by rw [clearParser_of_empty d hidle hempty]
  exact hcommand ▸ hparse

end

/-! ### Single bytes (R223) -/

/-- A control byte runs its instruction at once. -/
theorem parseByte_control (env : Env) (d : Display) (b : Byte) (i : Instr) (f : Env → Display → Display × List Effect)
    (hidle : d.pstate = .idle) (hb : controlInstr b = some i) (hf : Instr.onScreen? i = some f) :
    d.parseByte env b = f env d := by
  simp only [Display.parseByte, hidle, Display.parseIdle, control?_eq, hb, hf, Option.bind_some, Option.map_some]

/-- A printable byte is printed at once. -/
theorem parseByte_printable (env : Env) (d : Display) (b : Byte) (hidle : d.pstate = .idle) (hb : 0x20 ≤ b.toNat) :
    d.parseByte env b = (d.print env.cfg b, []) := by
  simp only [Display.parseByte, hidle, Display.parseIdle, control?_eq, controlInstr_of_printable b hb, Option.bind_none,
    if_pos hb]

/-- The parser makes of an instruction's bytes what the instruction makes of the display. -/
theorem instr_parsesOn (i : Instr) (bytes : List Byte) (f : Env → Display → Display × List Effect) (env : Env)
    (d : Display) (hwf : WellFormed i) (hbytes : encode i = .stream bytes) (hf : Instr.onScreen? i = some f)
    (htable : env.cfg.cmdTable = defaultCommandTable) (hidle : d.pstate = .idle) (hempty : parserEmpty d) :
    ParsesOn env (d, []) bytes (f env d) := by
  have control (b : Byte) (hb : controlInstr b = some i) : ParsesOn env (d, []) [b] (f env d) :=
    .single (parseByte_control env d b i f hidle hb hf)
  have printed (b : Byte) (hb : 0x20 ≤ b.toNat) : ParsesOn env (d, []) [b] (d.print env.cfg b, []) :=
    .single (parseByte_printable env d b hidle hb)
  have command (row : CommandRow) (hrow : row ∈ defaultCommandTable) (fs vs : List Byte)
      (hfs : fs.length = row.fixedLen) (hvs : vs.length = dynLength row.dynLen fs) :=
    command_parsesOn htable hrow d fs vs hidle hempty hfs hvs
  cases i with
  | bs | ht | lf | hom | clr | cr => cases hbytes; exact control _ rfl
  | print20 c => cases hbytes; cases hf; exact printed _ (print20Byte_read c).1
  | print40 c => cases hbytes; cases hf; exact printed _ (print40Byte_read c).1
  | print80 c => cases hbytes; cases hf; exact printed _ (print80Byte_read c).1
  | escInit =>
    cases hbytes; cases hf
    exact command ⟨[0x1B, 0x40], 0, .none, .escInit⟩ (by decide) [] [] rfl rfl
  | usCursor xL xH yL yH =>
    cases hbytes; cases hf
    exact command ⟨[0x1F, 0x24], 4, .none, .usCursor⟩ (by decide) [xL, xH, yL, yH] [] rfl rfl
  | usMag x y =>
    cases hbytes; cases hf
    exact command ⟨[0x1F, 0x28, 0x67, 0x40], 2, .none, .usMag⟩ (by decide) [x, y] [] rfl rfl
  | usImage xL xH yL yH g payload =>
    cases hbytes; cases hf
    exact command ⟨[0x1F, 0x28, 0x66, 0x11], 5, .imageSize, .usImage⟩ (by decide) [xL, xH, yL, yH, g] payload rfl
      (beq_iff_eq.mp hwf)
  | usScroll wL wH cL cH sp =>
    cases hbytes; cases hf
    exact command ⟨[0x1F, 0x28, 0x61, 0x10], 5, .none, .usScroll⟩ (by decide) [wL, wH, cL, cH, sp] [] rfl rfl
  | usBlink p t1 t2 c =>
    cases hbytes; cases hf
    exact command ⟨[0x1F, 0x28, 0x61, 0x11], 4, .none, .usBlink⟩ (by decide) [p, t1, t2, c] [] rfl rfl
  | usWinSelect w =>
    cases hbytes; cases hf
    exact command ⟨[0x1F, 0x28, 0x77, 0x01], 1, .none, .usWinSelect⟩ (by decide) [w] [] rfl rfl
  | usWinDefine w b payload =>
    cases hbytes; cases hf
    exact command ⟨[0x1F, 0x28, 0x77, 0x02], 2, .windowDefine, .usWinDefine⟩ (by decide) [w, b] payload rfl
      (beq_iff_eq.mp hwf)
  | startW | startR | write | read | stop | ack | ackRead | ledctl | eeaddr => cases hbytes

/-! ## The bytes on the bus (R221) -/

/-- From `s` WRITEs of `vs` to the display at `k` have come to `t`; the parser's answer to them is `r`. -/
structure Fed (s : State) (k : Nat) (dev : Device) (a : BusAddress) (vs : List Byte) (r : Display × List Effect)
    (t : State) : Prop where
  reached : t = { s with
    devices := s.devices.set k { dev with st := .display r.1 }
    dbglog := s.dbglog ++ r.2.filterMap (Effect.record? k)
    draws := s.draws + (r.2.map Effect.drawn).sum
    trace := s.trace ++ List.replicate vs.length (ackEvent (addressByte a false))
    openTx := s.openTx.map fun x => { x with writeBytes := x.writeBytes ++ vs }
    ab := t.ab }
  receiving : r.1.phase = .receiving

section
variable {s t : State} {k : Nat} {dev : Device} {a : BusAddress} {vs : List Byte}

theorem Fed.start (d : Display) (h : addressed s k dev a) (hst : dev.st = .display d) (hphase : d.phase = .receiving) :
    Fed s k dev a [] (d, []) s := by
  refine ⟨?_, hphase⟩
  have hdevices : s.devices.set k { dev with st := .display d } = s.devices := by
    rw [← hst]
    exact congrArg State.devices (setDevice_same s k dev (addressed_device h).1)
  simp [hdevices]

/-- One more WRITE, after bytes without an effect. -/
theorem Fed.write {d : Display} (hfed : Fed s k dev a vs (d, []) t) (h : addressed s k dev a)
    (hbusy : s.cfg.dispBusyUs = none) (b : Byte) :
    ∃ u, exec (.write b a false) t = .next u ∧ Fed s k dev a (vs ++ [b]) (d.parseByte s.env b) u := by
  obtain ⟨hreached, hphase⟩ := hfed
  obtain ⟨hab, -⟩ := id h
  obtain ⟨hbus, hrecords⟩ := parseByte_offBus s.env d b
  have hstoring : Storing s k dev (.display d) (List.replicate vs.length (ackEvent (addressByte a false))) t := by
    rw [hreached]
    exact ⟨hab, rfl, rfl, rfl⟩
  have henv : t.env = s.env := by
    rw [hreached]
    rfl
  have hexec := exec_write_display t k { dev with st := .display d } d b a false (hstoring.stays_addressed h) rfl hphase
  rw [henv, busyPulse_none s.env _ hbusy, List.append_nil, State.tookByte, foldl_perform_records k _ hrecords] at hexec
  refine ⟨_, hexec, ?_, (congrArg Prod.fst hbus).trans hphase⟩
  rw [hreached]
  simp [State.withDevice, heardByte, List.replicate_succ', Option.map_map, Function.comp_def]

/-- WRITEs of bytes of which only the last has an effect. -/
theorem Fed.writes {bs : List Byte} {r r' : Display × List Effect} (hparse : ParsesOn s.env r bs r')
    (hfed : Fed s k dev a vs r t) (h : addressed s k dev a) (hbusy : s.cfg.dispBusyUs = none) :
    ∃ u, runAll (bs.map fun b => .write b a false) t = .next u ∧ Fed s k dev a (vs ++ bs) r' u := by
  induction hparse generalizing vs t with
  | done r => exact ⟨t, rfl, by rwa [List.append_nil]⟩
  | byte d b bs r' _ ih =>
    obtain ⟨u, hexec, hu⟩ := hfed.write h hbusy b
    obtain ⟨v, hrun, hv⟩ := ih hu
    exact ⟨v, (runAll_cons _ _ t u hexec).trans hrun, by simpa using hv⟩

end

/-- Settles O39: the parser's answer to the bytes is the instruction's, and the WRITEs carry it out at the display in
focus as the instruction does. -/
theorem parserRunsTheDecodedCommand : Obligations.ParserRunsTheDecodedCommand := by
  intro i bytes s dev d a hwf hbytes haddr hst htable hbusy hphase hidle hempty
  obtain ⟨hab, hlive, -⟩ := id haddr
  obtain ⟨f, hscreen⟩ := onScreen_of_stream i bytes hbytes
  obtain ⟨t, hrun, ht⟩ := Fed.writes (instr_parsesOn i bytes f s.env d hwf hbytes hscreen htable hidle hempty)
    (Fed.start d haddr hst hphase) haddr hbusy
  have hexec := exec_focused i f s dev d hscreen ⟨hab, hlive⟩ hst
  rw [foldl_perform_records s.focus _ (onScreen_offBus i f hscreen s.env d).records] at hexec
  refine ⟨t, _, hrun, hexec, ?_⟩
  rw [ht.reached]
  exact ⟨rfl, rfl, rfl, rfl, rfl, rfl⟩

end Sys2Proof.Machine
end

section
/-! PROOFS. What a fatal raise leaves behind: no step after it, and what the raising device and the block have kept
(R281 to R285). -/

namespace Sys2Proof.Machine

/-! ## No step after an abort -/

theorem unlessAborted_of_some (s : State) (act : State → State) (r : FaultRecord) (h : s.aborted = some r) :
    s.unlessAborted act = .fault (.runAborted r) := by
  simp only [State.unlessAborted, h]

/-- A word the host raises is delivered to the address it carries (R66). -/
theorem exec_of_hostAddress (i : Instr) (a : BusAddress) (h : hostAddress? i = some a) :
    ∃ m : BusMessage, m.address = a ∧ ∀ s, exec i s = s.unlessAborted (fun s => s.deliver m) := by
  cases i with
  | startW v a => cases h; exact ⟨startMessage v a false, rfl, fun _ => rfl⟩
  | startR v a => cases h; exact ⟨startMessage v a true, rfl, fun _ => rfl⟩
  | write v a rnw => cases h; exact ⟨writeMessage v a rnw, rfl, fun _ => rfl⟩
  | read v a rnw => cases h; exact ⟨readMessage v a rnw, rfl, fun _ => rfl⟩
  | stop v a rnw => cases h; exact ⟨stopMessage v a rnw, rfl, fun _ => rfl⟩
  | ack | ackRead | bs | ht | lf | hom | clr | cr | print20 | print40 | print80 | escInit | usCursor | usMag | usImage
  | usScroll | usBlink | usWinSelect | usWinDefine | ledctl | eeaddr => cases h

/-- What an instruction that is no host word makes of `s`: no abort, or the reaction of the device in focus. -/
def Local (s t : State) : Prop :=
  t.aborted = s.aborted ∨ ∃ dev r, liveAt s s.focus dev ∧ t = s.react s.focus dev r

theorem onDisplay_local (s : State) (f : Env → Display → Display × List Effect) : Local s (s.onDisplay f) := by
  rcases onDisplay_cases s f with h | ⟨dev, d, hlive, -, h⟩
  · exact .inl (congrArg State.aborted h)
  · exact .inr ⟨dev, _, hlive, h⟩

theorem ledSelectByte_local (s : State) (b : Byte) : Local s (s.ledSelectByte b) := by
  rcases ledSelectByte_cases s b with h | ⟨dev, d, hlive, -, h⟩
  · exact .inl (congrArg State.aborted h)
  · exact .inr ⟨dev, _, hlive, h⟩

theorem eeAddressBytes_local (s : State) (hi lo : Byte) : Local s (s.eeAddressBytes hi lo) := by
  rcases eeAddressBytes_cases s hi lo with h | ⟨dev, d, hlive, -, h⟩
  · exact .inl (congrArg State.aborted h)
  · exact .inr ⟨dev, _, hlive, h⟩

/-- A reply, a row of the display, LEDCTL and EEADDR reach the device in focus at most (R65, log 9). -/
theorem exec_of_not_hostAddress (i : Instr) (h : hostAddress? i = none) :
    ∃ act : State → State, (∀ s, exec i s = s.unlessAborted act) ∧ ∀ s, Local s (act s) := by
  cases hscreen : Instr.onScreen? i with
  | some f => exact ⟨_, fun s => exec_onScreen i f s hscreen, fun s => onDisplay_local s f⟩
  | none =>
    cases i with
    | ack v a rnw => exact ⟨fun s => s.emitBusIn (ackWord (addressByte a rnw)), fun _ => rfl, fun _ => .inl rfl⟩
    | ackRead v a rnw =>
      exact ⟨fun s => s.emitBusIn (ackReadWord v (addressByte a rnw)), fun _ => rfl, fun _ => .inl rfl⟩
    | ledctl ai reg =>
      exact ⟨fun s => s.ledSelectByte (ledctlByte ai reg), fun _ => rfl, fun s => ledSelectByte_local s _⟩
    | eeaddr hi lo => exact ⟨fun s => s.eeAddressBytes hi lo, fun _ => rfl, fun s => eeAddressBytes_local s hi lo⟩
    | startW | startR | write | read | stop => cases h
    | bs | ht | lf | hom | clr | cr | print20 | print40 | print80 | escInit | usCursor | usMag | usImage | usScroll
    | usBlink | usWinSelect | usWinDefine => cases hscreen

theorem exec_aborted (i : Instr) (s : State) (r : FaultRecord) (h : s.aborted = some r) :
    exec i s = .fault (.runAborted r) := by
  cases hhost : hostAddress? i with
  | some a =>
    obtain ⟨m, -, hexec⟩ := exec_of_hostAddress i a hhost
    rw [hexec, unlessAborted_of_some s _ r h]
  | none =>
    obtain ⟨act, hexec, -⟩ := exec_of_not_hostAddress i hhost
    rw [hexec, unlessAborted_of_some s _ r h]

theorem run_aborted (s : State) (enc : Encoded) (r : FaultRecord) (h : s.aborted = some r) :
    s.run enc = .fault (.runAborted r) := by
  unfold State.run
  split
  · exact exec_aborted _ s r h
  · exact unlessAborted_of_some s _ r h

theorem event_aborted (s : State) (e : HostEvent) (r : FaultRecord) (h : s.aborted = some r) :
    s.event e = .fault (.runAborted r) := by
  cases e with
  | operation order focus enc => exact run_aborted { s with order := order, focus := focus } enc r h
  | advance | fire | addKeyEvent | addKeyRawEvent | addKeyPressAndRelease | addKeyPressAndReleaseCode | getCurrentState
  | getFinishedMessages | snapshot | registerOnComplete | attach | destroy =>
    rw [State.event]
    exact unlessAborted_of_some s _ r h

/-- Settles O9: each move of an agent and each instruction asks first whether the run is aborted. -/
theorem abortedRunHasNoStep : Obligations.AbortedRunHasNoStep := by
  intro s r hab
  refine ⟨?_, fun i => exec_aborted i s r hab⟩
  cases hin : s.inbox with
  | nil =>
    simp only [step, State.stepOnce, hin]
    exact unlessAborted_of_some s _ r hab
  | cons e rest =>
    rw [step_cons s e rest hin]
    exact event_aborted { s with inbox := rest } e r hab

/-! ## The raise -/

/-- A reaction that aborts the run writes nothing else, and names its device (R283). -/
theorem react_aborting (s : State) (k : Nat) (dev : Device) (r : Reaction DevState) (f : FaultRecord)
    (hab : s.aborted = none) (h : (s.react k dev r).aborted = some f) :
    f.device = k ∧ (∃ c info, r = .raise c info) ∧ s.react k dev r = { s with aborted := some f } := by
  cases r with
  | done st es =>
    rw [react_done, performAll_aborted, setDevice_aborted, hab] at h
    cases h
  | raise c info =>
    cases h
    exact ⟨rfl, ⟨c, info, rfl⟩, rfl⟩

theorem respond_raise_accepts (env : Env) (m : BusMessage) (dev : Device) (c : Cause) (info : FaultInfo)
    (h : dev.respond env m = .raise c info) : dev.accepts m.address = true := by
  by_contra hacc
  rw [respond_unmatched env m dev (by simpa using hacc)] at h
  cases h

/-- The device that fault `f` names is live at `u` and accepts message `m`. -/
def RaiserAccepts (m : BusMessage) (f : FaultRecord) (u : State) : Prop :=
  ∃ dev, liveAt u f.device dev ∧ dev.accepts m.address = true

theorem subscriber_aborting (s : State) (m : BusMessage) (k : Nat) (f : FaultRecord) (hab : s.aborted = none)
    (h : (s.subscriber m k).aborted = some f) :
    f.device = k ∧ RaiserAccepts m f s ∧ s.subscriber m k = { s with aborted := some f } := by
  rcases subscriber_cases s m k with hcall | hcall | hcall <;> rw [hcall] at h ⊢
  · cases hab.symm.trans h
  · cases hab.symm.trans ((listenOut_aborted s m).symm.trans h)
  · rcases adapter_cases s m k with hcall | ⟨dev, hlive, hcall⟩ <;> rw [hcall] at h ⊢
    · cases hab.symm.trans h
    · obtain ⟨rfl, ⟨c, info, hraise⟩, hreact⟩ := react_aborting s k dev _ f hab h
      exact ⟨rfl, ⟨dev, hlive, respond_raise_accepts s.env m dev c info hraise⟩, hreact⟩

/-- Subscribers of which one aborts the run: those before it run, and it writes the abort only. -/
theorem foldl_subscriber_aborting (m : BusMessage) (f : FaultRecord) (ks : List Nat) (s : State)
    (hab : s.aborted = none) (h : (ks.foldl (State.subscriber m) s).aborted = some f) :
    ∃ before after, ks = before ++ f.device :: after ∧
      RaiserAccepts m f (before.foldl (State.subscriber m) s) ∧
      ks.foldl (State.subscriber m) s = { before.foldl (State.subscriber m) s with aborted := some f } := by
  induction ks generalizing s with
  | nil => cases hab.symm.trans h
  | cons k ks ih =>
    rw [List.foldl_cons] at h ⊢
    cases hcall : (s.subscriber m k).aborted with
    | none =>
      obtain ⟨before, after, rfl, hraiser, hfold⟩ := ih _ hcall h
      exact ⟨k :: before, after, rfl, hraiser, hfold⟩
    | some f' =>
      rw [foldl_subscriber_aborted m ks _ f' hcall] at h ⊢
      obtain ⟨rfl, hraiser, hwrites⟩ := subscriber_aborting s m k f hab h
      exact ⟨[], ks, rfl, hraiser, hwrites⟩

/-! ## The delivery before the raise -/

/-- Subscribers of which none is a device that accepts the message. -/
theorem Delivering.skip {s t : State} {m : BusMessage} {before ks : List Nat} (h : Delivering s m (before ++ ks) t)
    (hnd : (before ++ ks).Nodup) (hle : ∀ j ∈ before, j ≤ s.devices.length)
    (hno : ∀ j ∈ before, ∀ dev, liveAt s j dev → dev.accepts m.address = false) :
    Delivering s m ks (before.foldl (State.subscriber m) t) := by
  induction before generalizing t with
  | nil => exact h
  | cons j before ih =>
    obtain ⟨hj, hnd'⟩ := List.nodup_cons.mp hnd
    obtain ⟨hjle, hle'⟩ := List.forall_mem_cons.mp hle
    obtain ⟨hjno, hno'⟩ := List.forall_mem_cons.mp hno
    refine ih ?_ hnd' hle' hno'
    rcases hjle.eq_or_lt with rfl | hlt
    · exact h.listener hj
    · exact h.unmatched hj hlt.ne hlt hjno

/-- At most one position counts, so two that count are the same. -/
theorem position_unique_of_countP_le_one {α : Type} (p : α → Bool) (l : List α) (hcount : l.countP p ≤ 1) (i j : Nat)
    (x y : α) (hx : l[i]? = some x) (hy : l[j]? = some y) (hpx : p x = true) (hpy : p y = true) : i = j := by
  wlog hij : i < j generalizing i j x y
  · rcases Nat.lt_or_eq_of_le (Nat.le_of_not_lt hij) with hji | rfl
    · exact (this j i y x hy hx hpy hpx hji).symm
    · rfl
  have hbefore : 0 < (l.take j).countP p :=
    List.countP_pos_iff.mpr ⟨x, List.mem_of_getElem? (by rw [List.getElem?_take_of_lt hij, hx]), hpx⟩
  have hafter : 0 < (l.drop j).countP p :=
    List.countP_pos_iff.mpr ⟨y, List.mem_of_getElem? (i := 0) (by simpa using hy), hpy⟩
  rw [← List.take_append_drop j l, List.countP_append] at hcount
  omega

theorem liveAt_unique_of_matchCount (s : State) (a : BusAddress) (hcount : matchCount s a ≤ 1) (i j : Nat)
    (dev dev' : Device) (hi : liveAt s i dev) (hj : liveAt s j dev') (hacc : dev.accepts a = true)
    (hacc' : dev'.accepts a = true) : i = j := by
  obtain ⟨hdev, hlive⟩ := (liveDevice?_eq_some s i dev).mp hi
  obtain ⟨hdev', hlive'⟩ := (liveDevice?_eq_some s j dev').mp hj
  exact position_unique_of_countP_le_one _ _ hcount i j dev dev' hdev hdev' (by simp [hlive, hacc])
    (by simp [hlive', hacc'])

/-- What a message that aborted the run has left as it was: the live device that raised, and, if it was the only one
to accept the message, the trace, the timed actions and the log. -/
theorem deliver_aborting (s : State) (m : BusMessage) (f : FaultRecord) (hab : s.aborted = none)
    (h : (s.deliver m).aborted = some f) :
    (∃ dev, liveAt s f.device dev) ∧ (s.deliver m).devices[f.device]? = s.devices[f.device]? ∧
      (matchCount s m.address ≤ 1 → (s.deliver m).trace = s.trace ∧ (s.deliver m).pending = s.pending ∧
        (s.deliver m).dbglog = s.dbglog) := by
  obtain ⟨before, after, horder, hraiser, hfold⟩ :=
    foldl_subscriber_aborting m f (deliveryOrder s.devices.length s.order) { s with ab := m.ab } hab h
  have hnd := deliveryOrder_nodup s.devices.length s.order
  have hle : ∀ j ∈ before, j ≤ s.devices.length := fun j hj =>
    (mem_deliveryOrder _ s.order j).mp (horder ▸ List.mem_append_left _ hj)
  rw [horder] at hnd
  obtain ⟨-, -, hapart⟩ := List.nodup_append.mp hnd
  have hbefore : ∀ j ∈ before, j ≠ f.device := fun j hj => hapart j hj _ List.mem_cons_self
  have hdevice : (before.foldl (State.subscriber m) { s with ab := m.ab }).devices[f.device]? = s.devices[f.device]? :=
    foldl_subscriber_other m f.device before _ fun hmem => hbefore _ hmem rfl
  obtain ⟨dev, hlive, hacc⟩ := hraiser
  have hlive' : liveAt s f.device dev := (liveAt_congr hdevice dev).mp hlive
  rw [State.deliver, hfold]
  refine ⟨⟨dev, hlive'⟩, hdevice, fun hcount => ?_⟩
  have hstart : Delivering s m (before ++ f.device :: after) { s with ab := m.ab } :=
    { running := hab, length := rfl, waiting := fun _ _ => rfl, trace := rfl, pending := rfl, dbglog := rfl,
      onComplete := rfl, transcript := (if_pos (horder ▸ (mem_deliveryOrder _ _ _).mpr le_rfl)).symm }
  have hreached := hstart.skip hnd hle fun j hj dev' hj_live => by
    by_contra hj_acc
    exact hbefore j hj (liveAt_unique_of_matchCount s m.address hcount j f.device dev' dev hj_live hlive'
      (by simpa using hj_acc) hacc)
  exact ⟨hreached.trace, hreached.pending, hreached.dbglog⟩

/-- Settles O10: a host word is the delivery up to the raising device; any other instruction reaches one device. -/
theorem fatalMessageLeavesItsDevice : Obligations.FatalMessageLeavesItsDevice := by
  intro i s t f hab hexec hfault
  cases hhost : hostAddress? i with
  | some a =>
    obtain ⟨m, rfl, hi⟩ := exec_of_hostAddress i a hhost
    rw [hi, unlessAborted_eq_next] at hexec
    obtain ⟨-, rfl⟩ := hexec
    obtain ⟨hlive, hdevice, hrest⟩ := deliver_aborting s m f hab hfault
    exact ⟨hlive, hdevice, fun hcount => hrest (hcount m.address rfl)⟩
  | none =>
    obtain ⟨act, hi, hlocal⟩ := exec_of_not_hostAddress i hhost
    rw [hi, unlessAborted_eq_next] at hexec
    obtain ⟨-, rfl⟩ := hexec
    rcases hlocal s with hsame | ⟨dev, r, hlive, hreact⟩
    · cases hab.symm.trans (hsame.symm.trans hfault)
    · rw [hreact] at hfault ⊢
      obtain ⟨hdevice, -, hwrites⟩ := react_aborting s s.focus dev r f hab hfault
      rw [hwrites]
      exact ⟨⟨dev, hdevice ▸ hlive⟩, rfl, fun _ => ⟨rfl, rfl, rfl⟩⟩

end Sys2Proof.Machine
end

section
/-! PROOFS. The host timer fires only what is pending, due and first (R273 to R275). -/

namespace Sys2Proof.Machine

/-! ## An action that may not fire (R273, R274) -/

/-- An action may not fire before its time, or while another is due earlier (R274). -/
theorem mayFire_eq_false (s : State) (act : PendingAction) :
    s.mayFire act = false ↔ s.now < act.fireAt ∨ ∃ x ∈ s.pending, x.fireAt < act.fireAt := by
  simp only [State.mayFire, Bool.and_eq_false_iff, decide_eq_false_iff_not, Nat.not_le, List.all_eq_false,
    decide_eq_true_eq]

theorem fire_not_pending (s : State) (id : Nat) (h : s.pending.find? (fun x => x.id == id) = none) :
    s.fire id = s := by
  simp only [State.fire, h]

theorem fire_not_enabled (s : State) (id : Nat) (act : PendingAction)
    (hfind : s.pending.find? (fun x => x.id == id) = some act) (h : s.mayFire act = false) : s.fire id = s := by
  simp only [State.fire, hfind, h, Bool.false_eq_true, if_false]

/-- Settles O53: the step is the timer's, which leaves alone an action that is absent or may not fire. -/
theorem timerFiresOnlyWhatIsDueFirst : Obligations.TimerFiresOnlyWhatIsDueFirst := by
  intro s id rest hab hin hnot
  rw [step_move s _ rest (fun u => u.fire id) hab hin fun _ => rfl]
  refine congrArg Host.Outcome.next ?_
  rcases hnot with hnone | ⟨act, hfind, hlate⟩
  · exact fire_not_pending { s with inbox := rest } id hnone
  · exact fire_not_enabled { s with inbox := rest } id act hfind
      ((mayFire_eq_false { s with inbox := rest } act).mpr hlate)

end Sys2Proof.Machine
end

section
/-! PROOFS. What a whole write transaction leaves in the transcript (R260 to R265, R268). -/

namespace Sys2Proof.Machine

/-! ## Replies the listener appends nothing for (R263) -/

/-- An effect for which the listener appends no byte: no reply at all, or a plain ACK. -/
def Effect.Unheard (e : Effect) : Prop := e.isReply = false ∨ ∃ ab, e = ackOnly ab

theorem unheard_ack (ab : Byte) : ∀ e ∈ [ackOnly ab], e.Unheard := List.forall_mem_singleton.mpr (.inr ⟨ab, rfl⟩)

theorem unheard_append_ack (es : List Effect) (hes : ∀ e ∈ es, e.isReply = false) (ab : Byte) :
    ∀ e ∈ es ++ [ackOnly ab], e.Unheard :=
  List.forall_mem_append.mpr ⟨fun e he => .inl (hes e he), unheard_ack ab⟩

theorem perform_openTx (k : Nat) (s : State) (e : Effect) (h : e.Unheard) : (s.perform k e).openTx = s.openTx := by
  rcases h with hno | ⟨ab, rfl⟩
  · cases e with
    | reply => cases hno
    | pin | log | cancel | schedule | drew => rfl
  · exact txReply_ackWord s.openTx ab

theorem foldl_perform_openTx (k : Nat) (es : List Effect) (hes : ∀ e ∈ es, e.Unheard) (s : State) :
    (es.foldl (State.perform k) s).openTx = s.openTx := by
  induction es generalizing s with
  | nil => rfl
  | cons e es ih =>
    obtain ⟨he, hes'⟩ := List.forall_mem_cons.mp hes
    rw [List.foldl_cons, ih hes', perform_openTx k s e he]

/-- Of the messages a two-phase device takes, only a READ brings a byte back (R98, R99, R116). -/
theorem Plugs.Takes.unheard {δ : Type} {p : Plugs δ} {m : BusMessage} {d d' : δ} {es : List Effect}
    (h : p.Takes m d d' es) (hp : ∀ d i v, ∀ e ∈ (p.writeReg d i v).2, e.isReply = false) (hkind : m.kind ≠ .read) :
    ∀ e ∈ es, e.Unheard := by
  cases h with
  | startW | startR | address => exact unheard_ack m.ab
  | store i => exact unheard_append_ack _ (hp d i m.data) m.ab
  | read i hread => exact absurd hread hkind
  | stop => exact List.forall_mem_nil _

theorem keypad_writeReg_noReply (d : Keypad) (i : Nat) (v : Byte) : ∀ e ∈ (d.writeReg i v).2, e.isReply = false := by
  obtain ⟨rel, hrel⟩ := keypad_writeReg_effects d i v
  rw [hrel]
  cases rel <;> simp [Effect.isReply]

theorem handle_eeprom_unheard (cfg : Config) (m : BusMessage) (d d' : Eeprom) (es : List Effect)
    (hkind : m.kind ≠ .read) (h : d.handle cfg m = .done d' es) : ∀ e ∈ es, e.Unheard := by
  unfold Eeprom.handle at h
  split at h
  case h_1 => cases h; exact unheard_ack m.ab
  case h_2 =>
    unfold Eeprom.onStartR at h
    split at h <;> cases h
    exact unheard_ack m.ab
  case h_3 =>
    unfold Eeprom.onWrite at h
    split at h
    case h_1 | h_2 => cases h; exact unheard_ack m.ab
    case h_3 =>
      unfold Eeprom.onStore at h
      split at h <;> cases h
      exact unheard_ack m.ab
    case h_4 => cases h
  case h_4 hread => exact absurd hread hkind
  case h_5 => cases h; exact List.forall_mem_nil _
  case h_6 => cases h

theorem handle_display_unheard (env : Env) (m : BusMessage) (d d' : Display) (es : List Effect)
    (h : d.handle env m = .done d' es) : ∀ e ∈ es, e.Unheard := by
  unfold Display.handle at h
  split at h
  case h_1 => cases h; exact unheard_ack m.ab
  case h_2 =>
    split at h <;> cases h
    refine unheard_append_ack _ (List.forall_mem_append.mpr ⟨fun e he => ?_, busyPulse_noReply env _⟩) m.ab
    exact isReply_of_isRecord e ((parseByte_offBus env d m.data).records e he)
  case h_3 => cases h; exact List.forall_mem_nil _
  all_goals cases h

theorem handle_unheard (env : Env) (m : BusMessage) (st st' : DevState) (es : List Effect) (hkind : m.kind ≠ .read)
    (h : st.handle env m = .done st' es) : ∀ e ∈ es, e.Unheard := by
  cases st with
  | rtc d | led d =>
    obtain ⟨d', hd, -⟩ := (Reaction.map_eq_done _ _ _ _).mp h
    exact (handle_eq_done _ m d d' es hd).unheard (fun _ _ _ => List.forall_mem_nil _) hkind
  | keypad d =>
    obtain ⟨d', hd, -⟩ := (Reaction.map_eq_done _ _ _ _).mp h
    exact (handle_eq_done _ m d d' es hd).unheard keypad_writeReg_noReply hkind
  | eeprom d =>
    obtain ⟨d', hd, -⟩ := (Reaction.map_eq_done _ _ _ _).mp h
    exact handle_eeprom_unheard env.cfg m d d' es hkind hd
  | display d =>
    obtain ⟨d', hd, -⟩ := (Reaction.map_eq_done _ _ _ _).mp h
    exact handle_display_unheard env m d d' es hd

theorem respond_unheard (env : Env) (m : BusMessage) (dev : Device) (st : DevState) (es : List Effect)
    (hkind : m.kind ≠ .read) (h : dev.respond env m = .done st es) : ∀ e ∈ es, e.Unheard := by
  rcases respond_eq_done env m dev st es h with ⟨-, st', hhandle, -⟩ | ⟨rfl, -⟩
  · exact handle_unheard env m dev.st st' es hkind hhandle
  · exact List.forall_mem_nil _

/-! ## What the listener makes of a message that aborts nothing -/

theorem react_openTx (s : State) (k : Nat) (dev : Device) (r : Reaction DevState)
    (h : ∀ st es, r = .done st es → ∀ e ∈ es, e.Unheard) : (s.react k dev r).openTx = s.openTx := by
  cases r with
  | done st es => exact foldl_perform_openTx k es (h st es rfl) _
  | raise c info => rfl

/-- The devices touch neither the transcript nor the callback, unless one of them brings a byte back. -/
theorem adapter_transcript (s : State) (m : BusMessage) (k : Nat) (hkind : m.kind ≠ .read) :
    (s.adapter m k).transcript = s.transcript ∧ (s.adapter m k).onComplete = s.onComplete := by
  rcases adapter_cases s m k with hcall | ⟨dev, -, hcall⟩ <;> rw [hcall]
  · exact ⟨rfl, rfl⟩
  · simp only [State.transcript, react_finished, react_calls, react_onComplete, and_true]
    rw [react_openTx s k dev _ fun st es => respond_unheard s.env m dev st es hkind]

/-- Subscribers none of which aborts the run: the listener has heard the message if it is one of them. -/
theorem foldl_subscriber_transcript (m : BusMessage) (hkind : m.kind ≠ .read) (ks : List Nat) (hnd : ks.Nodup)
    (s : State) (hab : (ks.foldl (State.subscriber m) s).aborted = none) :
    (ks.foldl (State.subscriber m) s).transcript =
      if s.devices.length ∈ ks then (s.listenOut m).transcript else s.transcript := by
  induction ks generalizing s with
  | nil => rfl
  | cons k ks ih =>
    obtain ⟨hk, hnd'⟩ := List.nodup_cons.mp hnd
    have hrun : s.aborted = none := by
      cases hrun : s.aborted with
      | none => rfl
      | some r =>
        rw [foldl_subscriber_aborted m _ s r hrun, hrun] at hab
        cases hab
    rw [List.foldl_cons] at hab ⊢
    rw [ih hnd' _ hab, subscriber_length]
    by_cases hlistener : k = s.devices.length
    · subst hlistener
      rw [if_neg hk, if_pos List.mem_cons_self, subscriber_listener s m hrun]
    · obtain ⟨htranscript, hcb⟩ := adapter_transcript s m k hkind
      rw [subscriber_device s m k hrun hlistener, listenOut_transcript s _ m htranscript hcb, htranscript]
      simp only [List.mem_cons, Ne.symm hlistener, false_or]

/-- A message but a READ, delivered without an abort: the transcript is what the listener makes of it, whatever the
devices that matched and the order (R54, R268). -/
theorem deliver_transcript (s : State) (m : BusMessage) (hkind : m.kind ≠ .read)
    (hab : (s.deliver m).aborted = none) : (s.deliver m).transcript = (s.listenOut m).transcript := by
  have hfold := foldl_subscriber_transcript m hkind _ (deliveryOrder_nodup s.devices.length s.order)
    { s with ab := m.ab } hab
  rw [if_pos ((mem_deliveryOrder _ _ _).mpr le_rfl)] at hfold
  exact hfold.trans (listenOut_transcript s { s with ab := m.ab } m rfl rfl)

/-! ## Instructions that run to the end -/

theorem runAll_cons_eq_next (i : Instr) (is : List Instr) (s u : State) (h : runAll (i :: is) s = .next u) :
    ∃ t, exec i s = .next t ∧ runAll is t = .next u := by
  rw [runAll] at h
  split at h
  case h_1 t hexec => exact ⟨t, hexec, h⟩
  all_goals cases h

/-- A state the run has left by another instruction is not aborted (R283). -/
theorem running_of_exec (i : Instr) (s t : State) (h : exec i s = .next t) : s.aborted = none := by
  cases hab : s.aborted with
  | none => rfl
  | some r => cases (exec_aborted i s r hab).symm.trans h

/-- An instruction with another after it: where both run, the first has aborted nothing. -/
theorem runAll_cons_running (i : Instr) (is : List Instr) (s u : State) (hne : is ≠ [])
    (h : runAll (i :: is) s = .next u) : ∃ t, exec i s = .next t ∧ t.aborted = none ∧ runAll is t = .next u := by
  obtain ⟨t, hexec, hrun⟩ := runAll_cons_eq_next i is s u h
  obtain ⟨j, js, rfl⟩ := List.exists_cons_of_ne_nil hne
  obtain ⟨v, hnext, -⟩ := runAll_cons_eq_next j js t u hrun
  exact ⟨t, hexec, running_of_exec j t v hnext, hrun⟩

/-- A host word but a READ that runs and aborts nothing: the transcript is the listener's. -/
theorem transcript_of_delivered (s t : State) (m : BusMessage) (hkind : m.kind ≠ .read)
    (hexec : s.unlessAborted (fun s => s.deliver m) = .next t) (hab : t.aborted = none) :
    t.transcript = (s.listenOut m).transcript := by
  obtain ⟨-, rfl⟩ := (unlessAborted_eq_next s t fun s => s.deliver m).mp hexec
  exact deliver_transcript s m hkind hab

/-- The transaction `tx` is open, and the finished list is `l`. -/
structure Recording (tx : Transaction) (l : List Transaction) (s : State) : Prop where
  openTx   : s.openTx = some tx
  finished : s.finished = l

theorem recording_of_transcript {s t : State} {tx : Transaction} {l : List Transaction} (h : Recording tx l s)
    (htranscript : t.transcript = s.transcript) : Recording tx l t := by
  simp only [State.transcript, Prod.mk.injEq] at htranscript
  obtain ⟨hopen, hfinished, -⟩ := htranscript
  exact ⟨hopen.trans h.openTx, hfinished.trans h.finished⟩

/-- START_W with no transaction open (R261). -/
theorem recording_of_startW (s t : State) (v : Byte) (a : BusAddress) (hopen : s.openTx = none)
    (hexec : exec (.startW v a) s = .next t) (hab : t.aborted = none) :
    Recording ⟨a, some .write, false, [], []⟩ s.finished t :=
  recording_of_transcript (s := s.listenOut (startMessage v a false)) ⟨congrArg (txStart · _) hopen, rfl⟩
    (transcript_of_delivered s t (startMessage v a false) nofun hexec hab)

/-- A WRITE (R262). -/
theorem Recording.write {s t : State} {tx : Transaction} {l : List Transaction} (h : Recording tx l s) (v : Byte)
    (a : BusAddress) (hexec : exec (.write v a false) s = .next t) (hab : t.aborted = none) :
    Recording { tx with writeBytes := tx.writeBytes ++ [v] } l t :=
  recording_of_transcript (s := s.listenOut (writeMessage v a false)) ⟨congrArg (txWrite · v) h.openTx, h.finished⟩
    (transcript_of_delivered s t (writeMessage v a false) nofun hexec hab)

/-- WRITEs with more to come after them. -/
theorem Recording.writes (bytes : List Byte) (a : BusAddress) (is : List Instr) (hne : is ≠ []) {s u : State}
    {tx : Transaction} {l : List Transaction} (h : Recording tx l s)
    (hrun : runAll (bytes.map (fun b => Instr.write b a false) ++ is) s = .next u) :
    ∃ t, runAll is t = .next u ∧ Recording { tx with writeBytes := tx.writeBytes ++ bytes } l t := by
  induction bytes generalizing s tx with
  | nil => exact ⟨s, hrun, by simpa using h⟩
  | cons b bytes ih =>
    obtain ⟨t, hexec, hab, hrest⟩ := runAll_cons_running _ _ s u (by simp [hne]) hrun
    simpa using ih (h.write b a hexec hab) hrest

/-- STOP, which no device raises on (R97, R264). -/
theorem Recording.stop {s t : State} {tx : Transaction} {l : List Transaction} (h : Recording tx l s) (v : Byte)
    (a : BusAddress) (hexec : exec (.stop v a false) s = .next t) :
    t.openTx = none ∧ t.finished = (tx :: l).take 100 := by
  rw [stopReturnsAddressedDevicesToIdle s v a false (running_of_exec _ s t hexec)] at hexec
  cases hexec
  exact ⟨rfl, by simp only [h.openTx, h.finished]⟩

/-! ## A transaction no device hears (R92) -/

/-- A message no live device accepts raises nothing, and none accepts the address after it. -/
theorem deliver_unheard_by_devices (s : State) (m : BusMessage) (hab : s.aborted = none) (hnone : noMatch s m.address) :
    (s.deliver m).aborted = none ∧ (s.deliver m).trace = s.trace ∧ noMatch (s.deliver m) m.address := by
  rw [deliver_unmatched_heard s m hab hnone]
  refine ⟨(listenOut_aborted _ m).trans hab, listenOut_trace _ m, ?_⟩
  intro d hd hlive
  dsimp only at hd
  split at hd
  · obtain ⟨d', hd', rfl⟩ := List.mem_map.mp hd
    unfold Device.heard at hlive ⊢
    split at hlive
    case isTrue hlive' =>
      rw [if_pos hlive']
      exact hnone d' hd' hlive'
    case isFalse hdead => exact absurd hlive hdead
  · exact hnone d hd hlive

/-- Host words to an address no live device accepts run to the end. -/
theorem runAll_noMatch (is : List Instr) (a : BusAddress) (his : ∀ i ∈ is, hostAddress? i = some a) (s : State)
    (hab : s.aborted = none) (hnone : noMatch s a) :
    ∃ t, runAll is s = .next t ∧ t.aborted = none ∧ t.trace = s.trace := by
  induction is generalizing s with
  | nil => exact ⟨s, rfl, hab, rfl⟩
  | cons i is ih =>
    obtain ⟨hi, his'⟩ := List.forall_mem_cons.mp his
    obtain ⟨m, rfl, hexec⟩ := exec_of_hostAddress i a hi
    obtain ⟨hab', htrace, hnone'⟩ := deliver_unheard_by_devices s m hab hnone
    obtain ⟨t, hrun, hrunning, htrace'⟩ := ih his' _ hab' hnone'
    exact ⟨t, (runAll_cons i is s _ ((hexec s).trans (unlessAborted_of_none s _ hab))).trans hrun, hrunning,
      htrace'.trans htrace⟩

/-- Settles O54: the listener's record is opened, gets its bytes and is closed; unaddressed words run to the end. -/
theorem transcriptOfAWrite : Obligations.TranscriptOfAWrite := by
  rintro s a bytes ds de hab hopen is rfl
  refine ⟨fun t hrun => ?_, fun hnone => ?_⟩
  · obtain ⟨t1, hstart, hab1, hrun1⟩ := runAll_cons_running _ _ s t (by simp) hrun
    have hopened := recording_of_startW s t1 ds a hopen hstart hab1
    obtain ⟨t2, hrun2, hwritten⟩ := hopened.writes bytes a [.stop de a false] (by simp) hrun1
    obtain ⟨t3, hstop, hend⟩ := runAll_cons_eq_next _ [] t2 t hrun2
    cases hend
    exact hwritten.stop de a hstop
  · refine runAll_noMatch _ a (fun i hi => ?_) s hab hnone
    simp only [List.mem_cons, List.mem_append, List.mem_map, List.not_mem_nil, or_false] at hi
    rcases hi with rfl | ⟨b, -, rfl⟩ | rfl <;> rfl

end Sys2Proof.Machine
end
